-- ==== Sys2Proof/Word.lean ====
section
/-! DEFINITION. The words of the AX6: the bytes of the serial line, the two- and four-byte fields of a payload
(R185) and the shaft angle in angle counts, 4,096 to a revolution (Conventions of 00_scope.md). -/

namespace Sys2Proof

/-- One byte of the serial line. -/
abbrev Byte := BitVec 8

/-- A two-byte payload field, low byte first on the line (R185). -/
abbrev Word16 := BitVec 16

/-- A four-byte payload field (the distance of JOG, the detail value of a FAULT report). -/
abbrev Word32 := BitVec 32

/-- A shaft angle in angle counts: 0 to 4,095, wrapping from 4,095 to 0 (R25). -/
abbrev Angle := BitVec 12

/-- The cycle number and the panel number, 0 to 65,535 wrapping to 0 (R35, R79). -/
abbrev Count16 := BitVec 16

end Sys2Proof
end

