-- ==== Sys2Proof/Syntax.lean ====
section
/-! DEFINITION. The commands of the AX6: one constructor of Instr per row of spec/opcode_table.json, with the row's
operands. A request carries the payload fields of its kind at the widths the line gives them (R179, R185); an event of a
pin or of a timer carries which input, axis or channel it concerns. -/

namespace Sys2Proof

/-- The four axes, numbered as R125 numbers them. -/
inductive Axis where
  | x | y | span | rot
deriving DecidableEq, Repr

/-- The two axes with a feedback encoder (R132). -/
inductive TableAxis where
  | x | y
deriving DecidableEq, Repr

/-- The three pulse generators (R129). -/
inductive Generator where
  | a | b | c
deriving DecidableEq, Repr

/-- An accepted edge of an input (R48). -/
inductive Edge where
  | rise | fall
deriving DecidableEq, Repr

/-- The code on the verifier's VCODE lines at a strobe (R96). -/
inductive VCode where
  | noPart | pass | failValue | failPolarity
deriving DecidableEq, Repr

/-- Which of the two motions that can be in flight a settle end belongs to: a planned move (R151) or the motion of a
service operation (R189). -/
inductive MotionKind where
  | planned | service
deriving DecidableEq, Repr

/-- The number of an actuator channel (R36). -/
abbrev ChannelNo := Fin 9

/-- The number of a filtered machine input (R47). -/
abbrev InputNo := Fin 12

/-- The fields of SET_LANDMARKS, 19 bytes (R33, R179). -/
structure LandmarkFields where
  close : Word16
  commit : Word16
  opening : Word16
  index : Word16
  fire : Word16
  verifyClose : Word16
  offset : Word16
  tolerance : Byte
  nominal : Word16
  stall : Word16
deriving DecidableEq, Repr

/-- The fields of SET_CHANNEL as R185 lays them out: bytes 2 and 3 are the on-angle in ANGLE mode and the source and
the sense in EDGE mode; bytes 4 to 5 the off-angle or the delay; bytes 6 to 7 unassigned or the width. -/
structure ChannelFields where
  channel : Byte
  mode : Byte
  byte2 : Byte
  byte3 : Byte
  word4 : Word16
  word6 : Word16
  limit : Word16
deriving DecidableEq, Repr

/-- The fields of the window form of SET_WINDOW (R51, R52), in the order of R51 after the window number. -/
structure WindowFields where
  window : Byte
  role : Byte
  input : Byte
  edge : Byte
  lo : Word16
  hi : Word16
  cls : Byte
  burst : Byte
deriving DecidableEq, Repr

/-- The fields of SET_AXIS (R130). -/
structure AxisFields where
  axis : Byte
  startRate : Byte
  topRate : Byte
  accel : Byte
  style : Byte
  homeOffset : Word16
  searchLimit : Word16
  following : Byte
deriving DecidableEq, Repr

/-- The fields of SET_GEOMETRY (R135). -/
structure GeometryFields where
  hx : Word16
  hy : Word16
  settle : Byte
  margin : Byte
deriving DecidableEq, Repr

/-- A step record as STEP_WRITE carries it: seven bytes, the last with the dispenser in bits 0 to 5 (48 to 63 are
refused under R69), BARRIER in bit 6 and SKIP in bit 7 (R185). -/
structure StepFields where
  x : Word16
  y : Word16
  rot : BitVec 2
  span : BitVec 4
  dispenser : BitVec 6
  barrier : Bool
  skip : Bool
deriving DecidableEq, Repr

/-- One image entry of PANEL_SET: dx, dy and the enabled byte (R73, R179). -/
structure ImageFields where
  dx : Word16
  dy : Word16
  enabled : Byte
deriving DecidableEq, Repr

/-- The fields of PANEL_SET, 26 bytes: the image count, four image entries, the board origin, the maximum tries. -/
structure PanelFields where
  count : Byte
  image1 : ImageFields
  image2 : ImageFields
  image3 : ImageFields
  image4 : ImageFields
  ox : Word16
  oy : Word16
  maxTries : Byte
deriving DecidableEq, Repr

/-- One tape map entry as TAPEMAP_WRITE carries it: a kind code, the step and the image (R179). -/
structure TapeFields where
  kind : Byte
  step : Word16
  image : Byte
deriving DecidableEq, Repr

/-- The commands of the AX6, one constructor per row of spec/opcode_table.json and in the table's order. -/
inductive Instr where
  | fullReset
  | restart
  | identify
  | status
  | setBaud (code : Byte)
  | baudSwitch
  | reportMask (mask : Byte)
  | setLandmarks (f : LandmarkFields)
  | setChannel (f : ChannelFields)
  | setWindowWindow (f : WindowFields)
  | setWindowInput (input count : Byte)
  | setWindowSkew (limit : Word16)
  | setAxis (f : AxisFields)
  | setStationsMap (q v r : Byte)
  | setStationsThreshold (depletion suspect : Byte)
  | setDispenserKeep (number position cls : Byte)
  | setDispenserEnable (number position cls : Byte)
  | setDispenserDisable (number position cls : Byte)
  | setSpan (code : Byte) (position : Word16)
  | setGeometry (f : GeometryFields)
  | stepCursor (position : Word16) (mode : Byte)
  | stepWrite (records : List StepFields)
  | stepRead (count : Byte)
  | stepCount (count : Word16)
  | panelSet (f : PanelFields)
  | itemRead (position : Word16) (image count : Byte)
  | tapemapCursorMap (position : Word16) (mode : Byte)
  | tapemapCursorTape (position : Word16)
  | tapemapWrite (entries : List TapeFields)
  | tapemapRead (count : Byte)
  | tapemapClear
  | home
  | run (mode count cont : Byte)
  | stop
  | clearFault
  | silence
  | ackWarnings
  | dispenserReady (number : Byte)
  | panelRelease
  | chainRead (first count : Byte)
  | redoRead
  | captureRead
  | serviceEnter
  | serviceExit
  | jogRunPositive (axis : Byte)
  | jogRunNegative (axis : Byte)
  | jogCounted (axis : Byte) (distance : Word32)
  | jogHalt (axis : Byte)
  | forceChannelSet (channel : Byte)
  | forceChannelClear (channel : Byte)
  | forceChannelToggle (channel : Byte)
  | loopTest (axis mode : Byte) (seed : Word16)
  | dryCycle
  | unassignedKind (kind : Byte)
  | frameDiscard (last : Byte)
  | frameGapTimeout
  | framingError
  | waitingRequest (kind : Byte)
  | busy
  | replySend
  | reportSend
  | forwardCount
  | reverseCount
  | indexMark
  | dspSendDone
  | edgeDelayReached (channel : ChannelNo)
  | edgeWidthReached (channel : ChannelNo)
  | singleRevTripDrop
  | inputEdge (input : InputNo) (edge : Edge)
  | boardPresentFall
  | boardPresentRise
  | panelStart
  | tapeEndRise
  | tapeEndFall
  | vstrobeRise (code : VCode)
  | rest
  | pendingFaultAdd
  | stallTimeReached
  | overrunLimitReached (channel : ChannelNo)
  | lockRelease (channel : ChannelNo)
  | channelSettingsAdopt
  | windowSettingsAdopt
  | homeShaftPhase
  | homeActivitiesOver
  | moveStart
  | axisRateAdopt (axis : Axis)
  | axisLastTickEnd (axis : Axis)
  | softLimitWithhold (axis : Axis)
  | genCSwitchGapEnd
  | settleEnd (motion : MotionKind)
  | searchLimitReached (axis : Axis)
  | homeInputRise (axis : Axis)
  | homeInputFall (axis : Axis)
  | feedbackCount (axis : TableAxis) (positive : Bool)
  | limitRise
  | limitFall
  | stopLineRise
  | stopLineFall
  | boardReleaseEnd
  | tapeGapEnd
  | tapeGapHeldStart
  | flashClockToggle
  | generatorTick (generator : Generator)
  | receivedByte (value : Byte)
  | indexFall
  | vstrobeFall
deriving DecidableEq, Repr

end Sys2Proof
end

