-- ==== Sys2Proof/Decode.lean ====
section
/-! DEFINITION. The words of the AX6. opcode_table.json gives its rows no bits, so no word of the table spells a command. The
serial line does spell the requests: this file reads a request from the kind and the payload of a frame (R177, R179, R185,
R187) and writes it, and forms the frame (R174). -/

namespace Sys2Proof

/-- The command that a word of the table's bits spells: no row of the table has bits, so none. -/
def decodeTableWord (_nbits _w : Nat) : Option Instr := none

/-! ### Fields (R185) -/

/-- A two-byte field, low byte first. -/
def word16 (lo hi : Byte) : Word16 := hi ++ lo

/-- A four-byte field, low byte first. -/
def word32 (b0 b1 b2 b3 : Byte) : Word32 := b3 ++ b2 ++ b1 ++ b0

/-- The low byte of a two-byte field. -/
def lowByte (w : Word16) : Byte := w.extractLsb' 0 8

/-- The high byte of a two-byte field. -/
def highByte (w : Word16) : Byte := w.extractLsb' 8 8

/-- The bytes of a two-byte field. -/
def bytes16 (w : Word16) : List Byte := [lowByte w, highByte w]

/-- The bytes of a four-byte field. -/
def bytes32 (w : Word32) : List Byte := [w.extractLsb' 0 8, w.extractLsb' 8 8, w.extractLsb' 16 8, w.extractLsb' 24 8]

/-- A step record from its seven bytes (R185). -/
def stepOfBytes (b0 b1 b2 b3 b4 b5 b6 : Byte) : StepFields :=
  { x := word16 b0 b1, y := word16 b2 b3, rot := b4.extractLsb' 0 2, span := b5.extractLsb' 0 4
    dispenser := b6.extractLsb' 0 6, barrier := b6.getLsbD 6, skip := b6.getLsbD 7 }

/-- A flag as one bit. -/
def bitOf (b : Bool) : BitVec 1 := BitVec.ofBool b

/-- The seven bytes of a step record, unassigned bits 0 (R185). -/
def bytesOfStep (f : StepFields) : List Byte :=
  bytes16 f.x ++ bytes16 f.y ++ [f.rot.setWidth 8, f.span.setWidth 8, bitOf f.skip ++ bitOf f.barrier ++ f.dispenser]

/-- A list of step records from bytes, none where they are not whole records. -/
def stepsOfBytes : List Byte → Option (List StepFields)
  | [] => some []
  | b0 :: b1 :: b2 :: b3 :: b4 :: b5 :: b6 :: rest => (stepsOfBytes rest).map (stepOfBytes b0 b1 b2 b3 b4 b5 b6 :: ·)
  | _ => none

/-- A list of tape map entries from bytes, none where they are not whole entries (R179). -/
def entriesOfBytes : List Byte → Option (List TapeFields)
  | [] => some []
  | b0 :: b1 :: b2 :: b3 :: rest =>
    (entriesOfBytes rest).map (({ kind := b0, step := word16 b1 b2, image := b3 } : TapeFields) :: ·)
  | _ => none

/-- The four bytes of a tape map entry. -/
def bytesOfEntry (f : TapeFields) : List Byte := [f.kind] ++ bytes16 f.step ++ [f.image]

/-- The five bytes of an image entry. -/
def bytesOfImage (f : ImageFields) : List Byte := bytes16 f.dx ++ bytes16 f.dy ++ [f.enabled]

/-! ### Reading a request (R177, R179) -/

/-- What the checks of a request that need no state find (R177). -/
inductive Parsed where
  | request (i : Instr)
  | badKind
  | badLength
  | badValue
deriving DecidableEq, Repr

/-- A list request: 1 to 32 whole records, otherwise BAD_LENGTH (R69, R111). -/
def listRequest {α : Type} (f : List α → Instr) (l : Option (List α)) : Parsed :=
  match l with
  | some l => if 1 ≤ l.length ∧ l.length ≤ 32 then .request (f l) else .badLength
  | none => .badLength

/-- The request of a kind from its payload: the table of R179, with R187 for the service kinds. An action code outside its
list is BAD_VALUE (R101, R190, R191). -/
def parseRequest (kind : Nat) (p : List Byte) : Parsed :=
  match kind with
  | 1 => match p with | [] => .request .identify | _ => .badLength
  | 2 => match p with | [] => .request .status | _ => .badLength
  | 3 => match p with | [] => .request .restart | _ => .badLength
  | 4 => match p with | [a] => .request (.setBaud a) | _ => .badLength
  | 5 => match p with | [a] => .request (.reportMask a) | _ => .badLength
  | 8 =>
    match p with
    | [a0, a1, b0, b1, c0, c1, d0, d1, e0, e1, f0, f1, g0, g1, t, n0, n1, s0, s1] =>
      .request (.setLandmarks
        { close := word16 a0 a1, commit := word16 b0 b1, opening := word16 c0 c1, index := word16 d0 d1
          fire := word16 e0 e1, verifyClose := word16 f0 f1, offset := word16 g0 g1, tolerance := t
          nominal := word16 n0 n1, stall := word16 s0 s1 })
    | _ => .badLength
  | 9 =>
    match p with
    | [n, m, b2, b3, d0, d1, w0, w1, l0, l1] =>
      .request (.setChannel
        { channel := n, mode := m, byte2 := b2, byte3 := b3, word4 := word16 d0 d1, word6 := word16 w0 w1
          limit := word16 l0 l1 })
    | _ => .badLength
  | 10 =>
    match p with
    | [0, n, r, i, e, l0, l1, h0, h1, c, k] =>
      .request (.setWindowWindow
        { window := n, role := r, input := i, edge := e, lo := word16 l0 l1, hi := word16 h0 h1, cls := c, burst := k })
    | [1, i, c] => .request (.setWindowInput i c)
    | [2, l0, l1] => .request (.setWindowSkew (word16 l0 l1))
    | _ => .badLength
  | 11 =>
    match p with
    | [n, rs, rt, a, st, h0, h1, l0, l1, f] =>
      .request (.setAxis
        { axis := n, startRate := rs, topRate := rt, accel := a, style := st, homeOffset := word16 h0 h1
          searchLimit := word16 l0 l1, following := f })
    | _ => .badLength
  | 12 =>
    match p with
    | [0, q, v, r] => .request (.setStationsMap q v r)
    | [1, d, u] => .request (.setStationsThreshold d u)
    | _ => .badLength
  | 13 =>
    match p with
    | [n, q, c, 0] => .request (.setDispenserKeep n q c)
    | [n, q, c, 1] => .request (.setDispenserEnable n q c)
    | [n, q, c, 2] => .request (.setDispenserDisable n q c)
    | [_, _, _, _] => .badValue
    | _ => .badLength
  | 14 => match p with | [c, q0, q1] => .request (.setSpan c (word16 q0 q1)) | _ => .badLength
  | 15 =>
    match p with
    | [x0, x1, y0, y1, t, m] =>
      .request (.setGeometry { hx := word16 x0 x1, hy := word16 y0 y1, settle := t, margin := m })
    | _ => .badLength
  | 16 => match p with | [q0, q1, m] => .request (.stepCursor (word16 q0 q1) m) | _ => .badLength
  | 17 => listRequest .stepWrite (stepsOfBytes p)
  | 18 => match p with | [c] => .request (.stepRead c) | _ => .badLength
  | 19 => match p with | [c0, c1] => .request (.stepCount (word16 c0 c1)) | _ => .badLength
  | 20 =>
    match p with
    | [n, a0, a1, b0, b1, e1, c0, c1, d0, d1, e2, f0, f1, g0, g1, e3, h0, h1, i0, i1, e4, x0, x1, y0, y1, m] =>
      .request (.panelSet
        { count := n
          image1 := { dx := word16 a0 a1, dy := word16 b0 b1, enabled := e1 }
          image2 := { dx := word16 c0 c1, dy := word16 d0 d1, enabled := e2 }
          image3 := { dx := word16 f0 f1, dy := word16 g0 g1, enabled := e3 }
          image4 := { dx := word16 h0 h1, dy := word16 i0 i1, enabled := e4 }
          ox := word16 x0 x1, oy := word16 y0 y1, maxTries := m })
    | _ => .badLength
  | 21 => match p with | [q0, q1, i, c] => .request (.itemRead (word16 q0 q1) i c) | _ => .badLength
  | 24 =>
    match p with
    | [0, q0, q1, m] => .request (.tapemapCursorMap (word16 q0 q1) m)
    | [1, q0, q1] => .request (.tapemapCursorTape (word16 q0 q1))
    | _ => .badLength
  | 25 => listRequest .tapemapWrite (entriesOfBytes p)
  | 26 => match p with | [c] => .request (.tapemapRead c) | _ => .badLength
  | 27 => match p with | [] => .request .tapemapClear | _ => .badLength
  | 32 => match p with | [] => .request .home | _ => .badLength
  | 33 => match p with | [m, n, c] => .request (.run m n c) | _ => .badLength
  | 34 => match p with | [] => .request .stop | _ => .badLength
  | 35 => match p with | [] => .request .clearFault | _ => .badLength
  | 36 => match p with | [] => .request .silence | _ => .badLength
  | 37 => match p with | [] => .request .ackWarnings | _ => .badLength
  | 38 => match p with | [n] => .request (.dispenserReady n) | _ => .badLength
  | 39 => match p with | [] => .request .panelRelease | _ => .badLength
  | 40 => match p with | [q, c] => .request (.chainRead q c) | _ => .badLength
  | 41 => match p with | [] => .request .redoRead | _ => .badLength
  | 42 => match p with | [] => .request .captureRead | _ => .badLength
  | 48 => match p with | [] => .request .serviceEnter | _ => .badLength
  | 49 => match p with | [] => .request .serviceExit | _ => .badLength
  | 50 =>
    match p with
    | [a, 0, _, _, _, _] => .request (.jogRunPositive a)
    | [a, 1, _, _, _, _] => .request (.jogRunNegative a)
    | [a, 2, d0, d1, d2, d3] => .request (.jogCounted a (word32 d0 d1 d2 d3))
    | [a, 3, _, _, _, _] => .request (.jogHalt a)
    | [_, _, _, _, _, _] => .badValue
    | _ => .badLength
  | 51 =>
    match p with
    | [c, 0] => .request (.forceChannelSet c)
    | [c, 1] => .request (.forceChannelClear c)
    | [c, 2] => .request (.forceChannelToggle c)
    | [_, _] => .badValue
    | _ => .badLength
  | 52 => match p with | [a, m, s0, s1] => .request (.loopTest a m (word16 s0 s1)) | _ => .badLength
  | 53 => match p with | [] => .request .dryCycle | _ => .badLength
  | _ => .badKind

/-- A kind from 1 to 63 that the kind table assigns to a request (R179, R187). -/
def kindAssigned (kind : Nat) : Bool :=
  [1, 2, 3, 4, 5, 8, 9, 10, 11, 12, 13, 14, 15, 16, 17, 18, 19, 20, 21, 24, 25, 26, 27, 32, 33, 34, 35, 36, 37, 38, 39,
    40, 41, 42, 48, 49, 50, 51, 52, 53].contains kind

/-- A service-only kind: 50 to 63 (R177). -/
def serviceKind (kind : Nat) : Bool := decide (50 ≤ kind ∧ kind ≤ 63)

/-! ### Writing a request -/

/-- The kind and the payload of a request; none for a command that no frame carries. -/
def encodeRequest : Instr → Option (Nat × List Byte)
  | .identify => some (1, [])
  | .status => some (2, [])
  | .restart => some (3, [])
  | .setBaud a => some (4, [a])
  | .reportMask a => some (5, [a])
  | .setLandmarks f => some (8, bytes16 f.close ++ bytes16 f.commit ++ bytes16 f.opening ++ bytes16 f.index ++
      bytes16 f.fire ++ bytes16 f.verifyClose ++ bytes16 f.offset ++ [f.tolerance] ++ bytes16 f.nominal ++ bytes16 f.stall)
  | .setChannel f => some (9, [f.channel, f.mode, f.byte2, f.byte3] ++ bytes16 f.word4 ++ bytes16 f.word6 ++ bytes16 f.limit)
  | .setWindowWindow f => some (10, [0, f.window, f.role, f.input, f.edge] ++ bytes16 f.lo ++ bytes16 f.hi ++ [f.cls, f.burst])
  | .setWindowInput i c => some (10, [1, i, c])
  | .setWindowSkew l => some (10, 2 :: bytes16 l)
  | .setAxis f => some (11, [f.axis, f.startRate, f.topRate, f.accel, f.style] ++ bytes16 f.homeOffset ++
      bytes16 f.searchLimit ++ [f.following])
  | .setStationsMap q v r => some (12, [0, q, v, r])
  | .setStationsThreshold d u => some (12, [1, d, u])
  | .setDispenserKeep n q c => some (13, [n, q, c, 0])
  | .setDispenserEnable n q c => some (13, [n, q, c, 1])
  | .setDispenserDisable n q c => some (13, [n, q, c, 2])
  | .setSpan c q => some (14, c :: bytes16 q)
  | .setGeometry f => some (15, bytes16 f.hx ++ bytes16 f.hy ++ [f.settle, f.margin])
  | .stepCursor q m => some (16, bytes16 q ++ [m])
  | .stepWrite l => some (17, l.flatMap bytesOfStep)
  | .stepRead c => some (18, [c])
  | .stepCount c => some (19, bytes16 c)
  | .panelSet f => some (20, [f.count] ++ bytesOfImage f.image1 ++ bytesOfImage f.image2 ++ bytesOfImage f.image3 ++
      bytesOfImage f.image4 ++ bytes16 f.ox ++ bytes16 f.oy ++ [f.maxTries])
  | .itemRead q i c => some (21, bytes16 q ++ [i, c])
  | .tapemapCursorMap q m => some (24, 0 :: bytes16 q ++ [m])
  | .tapemapCursorTape q => some (24, 1 :: bytes16 q)
  | .tapemapWrite l => some (25, l.flatMap bytesOfEntry)
  | .tapemapRead c => some (26, [c])
  | .tapemapClear => some (27, [])
  | .home => some (32, [])
  | .run m n c => some (33, [m, n, c])
  | .stop => some (34, [])
  | .clearFault => some (35, [])
  | .silence => some (36, [])
  | .ackWarnings => some (37, [])
  | .dispenserReady n => some (38, [n])
  | .panelRelease => some (39, [])
  | .chainRead q c => some (40, [q, c])
  | .redoRead => some (41, [])
  | .captureRead => some (42, [])
  | .serviceEnter => some (48, [])
  | .serviceExit => some (49, [])
  | .jogRunPositive a => some (50, [a, 0, 0, 0, 0, 0])
  | .jogRunNegative a => some (50, [a, 1, 0, 0, 0, 0])
  | .jogCounted a d => some (50, [a, 2] ++ bytes32 d)
  | .jogHalt a => some (50, [a, 3, 0, 0, 0, 0])
  | .forceChannelSet c => some (51, [c, 0])
  | .forceChannelClear c => some (51, [c, 1])
  | .forceChannelToggle c => some (51, [c, 2])
  | .loopTest a m d => some (52, [a, m] ++ bytes16 d)
  | .dryCycle => some (53, [])
  | .fullReset => none
  | .baudSwitch => none
  | .unassignedKind _ => none
  | .frameDiscard _ => none
  | .frameGapTimeout => none
  | .framingError => none
  | .waitingRequest _ => none
  | .busy => none
  | .replySend => none
  | .reportSend => none
  | .forwardCount => none
  | .reverseCount => none
  | .indexMark => none
  | .dspSendDone => none
  | .edgeDelayReached _ => none
  | .edgeWidthReached _ => none
  | .singleRevTripDrop => none
  | .inputEdge _ _ => none
  | .boardPresentFall => none
  | .boardPresentRise => none
  | .panelStart => none
  | .tapeEndRise => none
  | .tapeEndFall => none
  | .vstrobeRise _ => none
  | .rest => none
  | .pendingFaultAdd => none
  | .stallTimeReached => none
  | .overrunLimitReached _ => none
  | .lockRelease _ => none
  | .channelSettingsAdopt => none
  | .windowSettingsAdopt => none
  | .homeShaftPhase => none
  | .homeActivitiesOver => none
  | .moveStart => none
  | .axisRateAdopt _ => none
  | .axisLastTickEnd _ => none
  | .softLimitWithhold _ => none
  | .genCSwitchGapEnd => none
  | .settleEnd _ => none
  | .searchLimitReached _ => none
  | .homeInputRise _ => none
  | .homeInputFall _ => none
  | .feedbackCount _ _ => none
  | .limitRise => none
  | .limitFall => none
  | .stopLineRise => none
  | .stopLineFall => none
  | .boardReleaseEnd => none
  | .tapeGapEnd => none
  | .tapeGapHeldStart => none
  | .flashClockToggle => none
  | .generatorTick _ => none
  | .receivedByte _ => none
  | .indexFall => none
  | .vstrobeFall => none

/-! ### Frames (R174) -/

/-- The SYNC byte. -/
def syncByte : Byte := 165

/-- The sum of bytes, modulo 256. -/
def sumBytes (l : List Byte) : Byte := l.foldl (· + ·) 0

/-- A frame: SYNC, LEN, KIND, payload, and the CHECK that makes the sum of the rest 0 modulo 256. -/
def frameOf (kind : Nat) (payload : List Byte) : List Byte :=
  let len : Byte := BitVec.ofNat 8 (payload.length + 1)
  let k : Byte := BitVec.ofNat 8 kind
  [syncByte, len, k] ++ payload ++ [-(len + k + sumBytes payload)]

end Sys2Proof
end

