-- ==== Sys2Proof/Config.lean ====
section
/-! DEFINITION. What is fixed for the part (the capacities that R183 names, the lengths of its fixed pulses and
filters) and the free values of the model: the order of two actions of one event that the manual leaves to
either order. -/

namespace Sys2Proof.Config

/-- Free value (notes/assumptions/7.md). Where one forward crossing is reached both by a check window and by a channel,
the manual takes them "in either order" (R59) or says nothing. True takes the windows first. It is applied to a counter of
State, so that each such crossing has an order of its own, and it has no body: nothing can be proved of its value. -/
opaque windowsFirst : Nat → Bool

/-- Free value (notes/assumptions/7.md). Where one forward crossing is reached both by a landmark other than BOUNDARY and
by a check window, the manual gives no order between them. True takes the windows first. -/
opaque windowsBeforeLandmark : Nat → Bool

/-- Free value (notes/assumptions/8.md). OPEN is delivered to the Motion Unit and to the Window Monitor (R34) and the
manual gives no order between them. True forms the insertion outcome before a HELD plan starts its move. -/
opaque outcomeFirst : Nat → Bool

/-- The part name ZODWEN AX6, ten bytes (R183). -/
def partName : List Byte := [90, 79, 68, 87, 69, 78, 32, 65, 88, 54]
/-- The line's report queue holds up to 24 reports (R181). -/
def reportQueueMax : Nat := 24
/-- The redo queue holds at most 16 items (R100). -/
def redoMax : Nat := 16
/-- Step table positions (R67). -/
def stepMax : Nat := 1024
/-- Tape map positions (R110). -/
def tapeMax : Nat := 4096
/-- The retrace count, the reverse excursion, the travel count and the period timer hold at 65,535 (R25, R26, R29). -/
def holdMax : Nat := 65535
/-- The later count, the warning count and a dispenser's failure count hold at 255 (R163, R158, R102). -/
def countMax : Nat := 255
/-- A rest is judged when 50 ms have passed without an encoder count (R6). -/
def restTime : Nat := 50
/-- A rest within 64 ac of angle 0 is at home (R2); a reverse excursion above 64 is a fault (R31). -/
def homeBand : Nat := 64
/-- The trip of a single revolution is dropped after 1,024 ac (R5). -/
def singleTravel : Nat := 1024
/-- An index edge is qualified when the travel count is 2,048 or more (R26). -/
def qualifiedTravel : Nat := 2048
/-- The overrun lock is cleared when its release timer reaches 500 ms (R44). -/
def releaseTime : Nat := 500
/-- BOARD_RELEASE is pulsed for 100 ms (R82). -/
def boardReleaseTime : Nat := 100
/-- TAPE_GAP is pulsed for 20 ms, and a held pulse begins 20 ms after the running one ends (R117). -/
def tapeGapTime : Nat := 20
/-- Each half of the flash clock lasts 500 ms (R171). -/
def flashHalf : Nat := 500
/-- A gap of more than 10 ms inside a frame discards it (R175). -/
def frameGap : Nat := 10
/-- The filter count of every fixed filter: index, VSTROBE, home inputs, LIMIT, STOP_LINE (R26, R96, R136, R168). -/
def fixedFilter : Nat := 3
/-- One bit of the dispenser bus is shifted in 10 microseconds (R95). -/
def dspBitTime : Nat := 10
/-- The 48 bits of a fire frame are shifted in 480 microseconds (R95). -/
def dspShiftTime : Nat := 480
/-- DSP_LOAD is high for 10 microseconds, up to here (R95). -/
def dspLoadEnd : Nat := 490
/-- DSP_FIRE is high for 2 ms, up to here: the whole sequence takes about 2.5 ms (R95). -/
def dspSendTime : Nat := 2490
/-- A millisecond tick, in microseconds (R128). -/
def tickTime : Nat := 1000
/-- A pulse is 5 µs high (R128). -/
def pulseWidth : Nat := 5
/-- The direction level of STEP_DIR is set 20 µs before the first pulse in a new direction (R128). -/
def directionTime : Nat := 20
/-- The switch gap of generator C, 1 ms (R129). -/
def switchGap : Nat := 1000
/-- The X soft limit (R125). -/
def xLimit : Int := 45000
/-- The Y soft limit (R125). -/
def yLimit : Int := 36000
/-- The SPAN soft limit (R125). -/
def spanLimit : Int := 3000
/-- The pulses of one turn of ROT (R125). -/
def rotTurn : Int := 6400
/-- The low end at which a commanded position or a feedback count holds (R126). -/
def positionMin : Int := -65536
/-- The high end at which a commanded position or a feedback count holds (R126). -/
def positionMax : Int := 131071

end Sys2Proof.Config
end

