-- ==== Sys2Proof/Machine/State.lean ====
section
/-! DEFINITION. The state of the AX6, block by block as 00_scope.md names its blocks, and the state after a full reset.
Plain data throughout: registers, flags, timers, queues and tables, each with the rule that names it. -/

namespace Sys2Proof.Machine

/-- Why a step could stop. No rule of the manual stops the part, so there is one constructor, which nothing raises: safe. -/
inductive Fault where
  /-- Raised by nothing (safe): the part has no event at which it ceases to act. -/
  | none
deriving DecidableEq, Repr

/-- Why a command could be turned away by the model. -/
inductive Refusal where
  /-- Raised by an arm of exec whose command has no meaning yet (safe). No arm of this model raises it. -/
  | notModelled (mnemonic : String)
deriving DecidableEq, Repr

/-! ### Values of registers -/

/-- The sub-state of RUNNING (R1). -/
inductive SubState where
  | cycling | dwell
deriving DecidableEq, Repr

/-- The machine state (R1); only RUNNING holds a sub-state. -/
inductive MachineState where
  | unhomed | homing | stopped
  | running (sub : SubState)
  | stopping | halted | service
deriving DecidableEq, Repr

/-- The dwell reason set: each of five tokens present or absent (R9). -/
structure DwellSet where
  table : Bool
  fault : Bool
  board : Bool
  starved : Bool
  tape : Bool
deriving DecidableEq, Repr

/-- The mode of a run (R15), in the order in which R15 names the modes. -/
inductive RunMode where
  | direct | tapeOut | tapeIn
deriving DecidableEq, Repr

/-- The run record (R15): the mode, the panels remaining and the continue flag. -/
structure RunRecord where
  mode : RunMode
  remaining : Nat
  cont : Bool
deriving DecidableEq, Repr

/-- A work item: a step of the program in one image of the panel. The image is held from 0; s/i of the manual is
image number image + 1. -/
structure Item where
  step : Fin 1024
  image : Fin 4
deriving DecidableEq, Repr

/-- The landmarks in the order of their list (R33); angle 0 is BOUNDARY. -/
inductive Landmark where
  | close | commit | opening | index | fire | verifyClose
deriving DecidableEq, Repr

/-- The two single revolutions (R5). -/
inductive SingleKind where
  | sync | dry
deriving DecidableEq, Repr

/-- A single revolution in progress: its forward travel, reverse counts subtracted, and whether R5 dropped its trip. -/
structure SingleRev where
  kind : SingleKind
  travel : Int
  dropped : Bool
deriving DecidableEq, Repr

/-- A filtered input: the level at the pin, the accepted level and the candidate count (R48). -/
structure Filter where
  raw : Bool
  accepted : Bool
  candidate : Nat
deriving DecidableEq, Repr

/-! ### Faults and reports -/

/-- The classes of a fault, weakest first (R157). -/
inductive FaultClass where
  | w | d | s | h
deriving DecidableEq, Repr

/-- The 28 fault kinds in the order of their codes (R157). -/
inductive FaultKind where
  | syncFail | encoderSlip | shaftStall | shaftReverse | shaftOvertravel | channelOverrun | chainJam | tapeJam
  | burst | homeFail | boardLost | following | limitSwitch | stopLine | headEmpty | leadMiss | headJam | guardTrip
  | watchMiss | lateTable | reelSuspect | tapeCount | tapeFull | leadSkew | verifierSilent | strayPart
  | itemAbandoned | targetRange
deriving DecidableEq, Repr

/-- A fault record (R156). -/
structure FaultRecord where
  kind : FaultKind
  cls : FaultClass
  item : Option Item
  chainPos : Option Nat
  angle : Angle
  synced : Bool
  cycle : Count16
  detail : Int
deriving DecidableEq, Repr

/-- What a STATE report carries (R1). -/
structure StateView where
  state : MachineState
  finishing : Bool
  dwell : DwellSet
  run : Option (RunMode × Nat)
deriving DecidableEq, Repr

/-- The outcome field of a CYCLE report (R65). -/
inductive CycleOutcome where
  | inserted | unverified | suspect | returned | blank | cleared | held
deriving DecidableEq, Repr

/-- How a panel ended (R82, R83, R120). -/
inductive PanelEnding where
  | complete | released | incomplete
deriving DecidableEq, Repr

/-- The nine item states in the order of R75. -/
inductive ItemState where
  | pending | chained | redo | head | inserted | suspect | abandoned | skipped | taped
deriving DecidableEq, Repr

/-- The number of items in each of the nine item states (R78). -/
structure ItemCounts where
  pending : Nat
  chained : Nat
  redo : Nat
  head : Nat
  inserted : Nat
  suspect : Nat
  abandoned : Nat
  skipped : Nat
  taped : Nat
deriving DecidableEq, Repr

/-- The states of a dispenser (R101). -/
inductive DispenserState where
  | disabled | enabled | depleted | suspended
deriving DecidableEq, Repr

/-- The cause a DISPENSER report carries (R103). -/
inductive DispenserCause where
  | depletion | suspect | ready | enable | disable
deriving DecidableEq, Repr

/-- The result a HOME_DONE or TEST_DONE report carries (R20, R189). -/
inductive DoneResult where
  | done | aborted | failed
deriving DecidableEq, Repr

/-- The service operations (R189). -/
inductive ServiceName where
  | jog | dryCycle | loopTest
deriving DecidableEq, Repr

/-- What a TEST_DONE report carries (R189). The fields of a loop test are absent for the other operations. -/
structure TestDone where
  operation : ServiceName
  result : DoneResult
  kind : Option FaultKind
  axis : Option Axis
  intern : Option Bool
  moves : Option Nat
  mismatches : Option Nat
  value : Option Int
deriving DecidableEq, Repr

/-- The reel state (R113). -/
inductive ReelState where
  | jammed | unthreaded | ready
deriving DecidableEq, Repr

/-- The causes of a TAPE report, in the order of R123. -/
inductive TapeCause where
  | passEnd | panelEnd | mapEnd | jam | reel | positionSet | cleared
deriving DecidableEq, Repr

/-- A report, complete when queued (R181); the overflow flag is added when it is sent. -/
inductive Report where
  | state (view : StateView)
  | fault (record : FaultRecord) (entered : Bool)
  | cycle (number : Count16) (item : Option Item) (outcome : CycleOutcome) (period : Nat) (valid : Bool)
      (captures : List (Nat × Angle))
  | panel (number : Count16) (mode : RunMode) (ending : PanelEnding) (items : Nat) (counts : ItemCounts)
  | dispenser (number : Nat) (state : DispenserState) (cause : DispenserCause) (history : List VCode)
  | homeDone (result : DoneResult) (kind : Option FaultKind)
  | testDone (t : TestDone)
  | tape (cause : TapeCause) (position length : Nat) (reel : ReelState) (mapPosition : Option Nat)
deriving DecidableEq, Repr

/-! ### Machine Supervisor -/

/-- The state of the Machine Supervisor (R1 to R24). -/
structure Msv where
  state : MachineState
  finishing : Bool
  trip : Bool
  brake : Bool
  dwell : DwellSet
  run : Option RunRecord
  atRest : Bool
  restTimer : Nat
  offHome : Bool
  faultPending : Bool
  single : Option SingleRev
  commandedStop : Bool
  commitPassed : Bool
  heldThrough : Bool
  home : Option Bool
deriving DecidableEq, Repr

/-! ### Shaft Timing Unit -/

/-- The six landmark angles and the shaft profile, set by SET_LANDMARKS (R33). -/
structure LandmarkProfile where
  close : Angle
  commit : Angle
  opening : Angle
  index : Angle
  fire : Angle
  verifyClose : Angle
  offset : Angle
  tolerance : Nat
  nominal : Nat
  stall : Nat
deriving DecidableEq, Repr

/-- The mode of a channel with the settings of that mode (R38, R39). -/
inductive ChannelMode where
  | angle (on off : Angle)
  | edge (source : InputNo) (sense : Edge) (delay width : Nat)
deriving DecidableEq, Repr

/-- The settings of a channel (R42). -/
structure ChannelSettings where
  mode : ChannelMode
  limit : Nat
deriving DecidableEq, Repr

/-- The state of an edge trigger (R39). The travel of a running trigger is the channel's onTravel. -/
inductive Trigger where
  | spent | opened
  | armed (travel : Nat)
  | running
deriving DecidableEq, Repr

/-- An actuator channel (R37). onTravel counts the forward crossings since the command went on (R39, R42); nextOpen
holds the capture that BOUNDARY opened while a pulse was still in progress (R39). -/
structure Channel where
  active : ChannelSettings
  staged : Option ChannelSettings
  command : Bool
  force : Bool
  onTimer : Nat
  locked : Bool
  releaseTimer : Nat
  trigger : Trigger
  nextOpen : Bool
  onTravel : Nat
deriving DecidableEq, Repr

/-- A running stall timer: the stall time held at its last start, and the milliseconds since (R30, R33). -/
structure StallTimer where
  time : Nat
  elapsed : Nat
deriving DecidableEq, Repr

/-- The state of the Shaft Timing Unit (R25 to R46). -/
structure Stu where
  angle : Angle
  synced : Bool
  travel : Nat
  retrace : Nat
  excursion : Nat
  lastReverse : Bool
  reverseRaised : Bool
  indexInput : Filter
  pointer : Option Landmark
  period : Nat
  periodValid : Bool
  periodTimer : Option Nat
  engaged : Bool
  stallTimer : Option StallTimer
  cycle : Count16
  channels : Vector Channel 9
  driveOn : Bool
  indexFired : Bool
deriving DecidableEq, Repr

/-! ### Window Monitor -/

/-- The roles of a window in the order of R50. -/
inductive WindowRole where
  | unused | part | lead1 | lead2 | driver | chain | tape | guard | watch
deriving DecidableEq, Repr

/-- The edge setting of a window (R51). -/
inductive WindowEdge where
  | rise | fall | high | low
deriving DecidableEq, Repr

/-- The settings of a window (R51). UNUSED has no input and no class. -/
structure WindowSettings where
  role : WindowRole
  input : Option InputNo
  edge : WindowEdge
  lo : Angle
  hi : Angle
  cls : Option FaultClass
  burst : Nat
deriving DecidableEq, Repr

/-- A result of the burst history (R56). -/
inductive WindowResult where
  | pass | miss
deriving DecidableEq, Repr

/-- A window entry (R51): settings and working state. -/
structure Window where
  active : WindowSettings
  staged : Option WindowSettings
  isOpen : Bool
  capture : Option Angle
  lastCapture : Option (Angle × Bool)
  mark : Bool
  history : List WindowResult
deriving DecidableEq, Repr

/-- The content of the head load (R57). -/
inductive HeadContent where
  | empty
  | item (i : Item)
  | surplus
  | unknown
deriving DecidableEq, Repr

/-- The result of a lead window for the current head load (R57, R61). -/
inductive LeadResult where
  | none
  | captured (a : Angle)
  | missed
deriving DecidableEq, Repr

/-- The head load record (R57). gripped says whether GRIP's command went on for this head load, which R59 asks; returned, whether
the delivery itself returned the item of record, over an uncleared head, which the CYCLE report asks (R58). -/
structure HeadLoad where
  content : HeadContent
  record : Option Item
  good : Bool
  partMissed : Bool
  driveDone : Bool
  ejectMark : Bool
  ejectDone : Bool
  lead1 : LeadResult
  lead2 : LeadResult
  gripped : Bool
  returned : Bool
deriving DecidableEq, Repr

/-- The state of the Window Monitor (R47 to R66). -/
structure Wmu where
  inputs : Vector Filter 12
  filterCounts : Vector Nat 12
  windows : Vector Window 12
  skewLimit : Nat
  head : HeadLoad
deriving DecidableEq, Repr

/-! ### Tables -/

/-- An addressed table of the part: the entries that differ from what an unlisted position reads as, positions strictly
rising. Equal tables are equal lists. -/
abbrev Table (α : Type) := List (Nat × α)

/-! ### Program Store -/

/-- A step record (R67). -/
structure StepRecord where
  x : Word16
  y : Word16
  rot : Fin 4
  span : Fin 16
  dispenser : Fin 48
  barrier : Bool
  skip : Bool
deriving DecidableEq, Repr

/-- The advance modes of a cursor (R68). -/
inductive Advance where
  | hold | all | write
deriving DecidableEq, Repr

/-- A cursor (R68, R111). -/
structure Cursor where
  position : Nat
  mode : Advance
deriving DecidableEq, Repr

/-- One image of the panel setup (R73). An image above the image count counts as disabled. -/
structure Image where
  dx : Word16
  dy : Word16
  enabled : Bool
deriving DecidableEq, Repr

/-- The panel setup (R73). -/
structure PanelSetup where
  count : Nat
  image1 : Image
  image2 : Image
  image3 : Image
  image4 : Image
  ox : Word16
  oy : Word16
  maxTries : Nat
deriving DecidableEq, Repr

/-- The reason of an ABANDONED item (R75). -/
inductive Reason where
  | tries | range | released
deriving DecidableEq, Repr

/-- A record of the item state table (R75). -/
structure ItemRecord where
  state : ItemState
  tries : Nat
  reason : Option Reason
deriving DecidableEq, Repr

/-- The state of the Program Store (R67 to R85). panel is the mode of the open panel, absent when none is open;
boardRelease is the time a running BOARD_RELEASE pulse has lasted. -/
structure Pgs where
  staged : Option PanelSetup
  active : PanelSetup
  items : Table ItemRecord
  panel : Option RunMode
  number : Count16
  boardChanged : Bool
  boardAway : Bool
  boardRelease : Option Nat
deriving DecidableEq, Repr

/-! ### Sequencer Controller -/

/-- The state of an ITEM slot (R87). -/
inductive SlotState where
  | assigned | loaded | passed | rejected
deriving DecidableEq, Repr

/-- The content of a slot (R87). -/
inductive SlotContent where
  | empty | unknown
  | item (i : Item) (st : SlotState)
deriving DecidableEq, Repr

/-- A slot record (R87). -/
structure Slot where
  content : SlotContent
  stray : Bool
  judged : Bool
deriving DecidableEq, Repr

/-- The class of a dispenser (R101). -/
inductive DispenserClass where
  | plain | polarized
deriving DecidableEq, Repr

/-- An entry of the dispenser table (R101). -/
structure Dispenser where
  position : Nat
  cls : DispenserClass
  state : DispenserState
  history : List VCode
  failures : Nat
deriving DecidableEq, Repr

/-- The verdict window (R96). -/
inductive VerdictWindow where
  | closed | undecided | decided
deriving DecidableEq, Repr

/-- A fire frame being sent on the dispenser bus: its dispensers and the microseconds since the shift began (R95). -/
structure DspSend where
  frame : List Nat
  elapsed : Nat
deriving DecidableEq, Repr

/-- The state of the Sequencer Controller (R86 to R109). The chain holds position 1 first. -/
structure Sqc where
  q : Nat
  v : Nat
  r : Nat
  chain : List Slot
  redo : List Item
  dispensers : Vector Dispenser 48
  frame : Option (List Nat)
  verdict : VerdictWindow
  vsel : Nat
  vstrobe : Filter
  vcode : VCode
  dsp : Option DspSend
deriving DecidableEq, Repr

/-! ### Tape Map Unit -/

/-- A tape map entry (R110). -/
inductive TapeEntry where
  | item (i : Item)
  | blank | panelEnd
deriving DecidableEq, Repr

/-- The state of the Tape Map Unit (R110 to R124). gap is the running TAPE_GAP pulse: the level of TAPE_GAP_2 and the
time it has lasted; gapHeld the levels of TAPE_GAP_2 of the held pulses, in the order of their pass ends; gapWait the
time since the last pulse ended while one is held. -/
structure Tmu where
  map : Table TapeEntry
  mapLength : Nat
  cursor : Cursor
  position : Nat
  jammed : Bool
  mark : Option Item
  lastTaped : Option (Item × Nat)
  mapEnd : Bool
  gap : Option (Bool × Nat)
  gapHeld : List Bool
  gapWait : Option Nat
deriving DecidableEq, Repr

/-! ### Motion Unit -/

/-- The states of an axis (R126). -/
inductive AxisState where
  | unhomed | idle | moving | settling | homing
deriving DecidableEq, Repr

/-- The rates of an axis (R126). -/
structure Rates where
  rs : Nat
  rt : Nat
  a : Nat
deriving DecidableEq, Repr

/-- The output style of an axis (R128). -/
inductive OutputStyle where
  | stepDir | cwCcw
deriving DecidableEq, Repr

/-- What the generator of an axis has still to issue to it: nothing; the remaining ticks of a profile, the tick in progress
first; a running jog, which ends with the tick in progress when ending is set (R190); a homing search or its back-off, with the pulses it has
issued toward the search limit, reversing at the end of the tick when turning is set (R137) and ending with the tick
when ending is set (R139). -/
inductive Drive where
  | idle
  | profile (positive : Bool) (ticks : List Nat)
  | jog (positive : Bool) (rate : Nat) (ending : Bool)
  | search (back : Bool) (rate issued : Nat) (turning ending : Bool)
deriving DecidableEq, Repr

/-- The tick in progress of an axis (R128): the microseconds before it begins, which the direction level of STEP_DIR takes;
the microseconds since it began; the pulses given so far, and whether a soft limit withheld one of them. -/
structure TickPhase where
  wait : Nat := 0
  time : Nat := 0
  given : Nat := 0
  withheld : Bool := false
deriving DecidableEq, Repr

/-- The pulse output of an axis (R128): the microseconds for which the pulse begun last is still high, and its direction. -/
structure PulseOut where
  high : Nat := 0
  positive : Bool := false
deriving DecidableEq, Repr

/-- An axis record (R126), with what its generator has still to issue, the tick in progress, the pulse at its outputs and the
level its direction line holds (R128). -/
structure AxisRec where
  state : AxisState
  commanded : Int
  feedback : Int
  rates : Rates
  staged : Rates
  stagedFlag : Bool
  style : OutputStyle
  homeOffset : Int
  searchLimit : Nat
  following : Nat
  homePending : Bool
  homeInput : Filter
  drive : Drive
  tick : TickPhase := {}
  pulse : PulseOut := {}
  dirHigh : Bool
deriving DecidableEq, Repr

/-- One axis of a move plan: its target, distance, direction, rates and tick profile (R150). -/
structure Leg where
  axis : Axis
  target : Int
  distance : Nat
  positive : Bool
  rates : Rates
  ticks : List Nat
deriving DecidableEq, Repr

/-- The verdict of a plan (R12). -/
inductive Verdict where
  | fit | noFit | noMove
deriving DecidableEq, Repr

/-- A move plan: its item, the axes it moves, its verdict, and whether its OPEN has been met (R150, R151). -/
structure Plan where
  item : Option Item
  legs : List Leg
  verdict : Verdict
  openMet : Bool
deriving DecidableEq, Repr

/-- A running settle timer: its time, the milliseconds it has run, and the microseconds of the one in progress (R133). -/
structure Settle where
  time : Nat
  elapsed : Nat
  micro : Nat := 0
deriving DecidableEq, Repr

/-- What ended a service operation early (R189). -/
inductive EndCause where
  | none | stop
  | fault (k : FaultKind)
deriving DecidableEq, Repr

/-- The service operation in flight (R189): a jog, running or counted; a dry revolution; a loop test with its shift
number, the moves completed, the mismatch count and the values saved at its start (R193, R194). -/
inductive ServiceOp where
  | jog (axis : Axis) (counted : Bool) (cause : EndCause)
  | dry (cause : EndCause)
  | loop (axis : TableAxis) (intern : Bool) (number moves mismatches : Nat) (savedCommanded savedFeedback : Int)
      (cause : EndCause)
deriving DecidableEq, Repr

/-- The state of the Motion Unit (R125 to R155). running and held are the plan record; cAxis the assignment of
generator C and cGap the microseconds its running switch gap has lasted. -/
structure Mot where
  x : AxisRec
  y : AxisRec
  span : AxisRec
  rot : AxisRec
  cAxis : Option Axis
  cGap : Option Nat
  running : Option Plan
  held : Option Plan
  settle : Option Settle
  service : Option ServiceOp
  serviceSettle : Option Settle
  settled : Bool
  limit : Filter
deriving DecidableEq, Repr

/-! ### Fault and Alarm Unit -/

/-- The capture record (R163). -/
structure Capture where
  content : Option FaultRecord
  locked : Bool
  later : Nat
deriving DecidableEq, Repr

/-- The state of the Fault and Alarm Unit (R156 to R172). flashOn is the half of the flash clock. -/
structure Fau where
  capture : Capture
  warnPending : Bool
  warnCount : Nat
  horn : Bool
  stopLine : Filter
  flashOn : Bool
  flashTimer : Nat
deriving DecidableEq, Repr

/-! ### Settings kept by the store -/

/-- The downloaded values that no event of the machine changes: only requests write them, and a full reset restores
them. Each belongs to the block of the rule it cites. -/
structure Store where
  /-- The landmark angles and the shaft profile (STU, R33). -/
  landmarks : LandmarkProfile
  /-- The step table (PGS, R67). -/
  steps : Table StepRecord
  /-- The step count (PGS, R67). -/
  stepCount : Nat
  /-- The step cursor (PGS, R68). -/
  stepCursor : Cursor
  /-- The span table (PGS, R72). -/
  spans : Table Nat
  /-- The depletion threshold (SQC, R102). -/
  depletion : Nat
  /-- The suspect threshold (SQC, R102). -/
  suspect : Nat
  /-- The head point (MOT, R135). -/
  hx : Int
  /-- The head point (MOT, R135). -/
  hy : Int
  /-- The settle time (MOT, R135). -/
  settleTime : Nat
  /-- The fit margin (MOT, R135). -/
  fitMargin : Nat
deriving DecidableEq, Repr

/-! ### Serial Link Interface -/

/-- The status of a reply (R177). -/
inductive Status where
  | ok | badKind | badLength | badValue | wrongState | busy | notInService | tableEnd | causePresent
deriving DecidableEq, Repr

/-- A lamp (R171). -/
inductive Lamp where
  | off | steady | flashing
deriving DecidableEq, Repr

/-- What STATUS shows of one axis (R126); the feedback count is absent for SPAN and ROT. -/
structure AxisView where
  state : AxisState
  commanded : Int
  feedback : Option Int
deriving DecidableEq, Repr

/-- The snapshot of the STATUS reply (R184). -/
structure Snapshot where
  view : StateView
  run : Option RunRecord
  panel : Option RunMode
  panelNumber : Count16
  boardChanged : Bool
  boardAway : Bool
  counts : ItemCounts
  cycle : Count16
  angle : Angle
  synced : Bool
  period : Nat
  periodValid : Bool
  axes : List AxisView
  inputs : List Bool
  homeInputs : List Bool
  limit : Bool
  stopLine : Bool
  locked : Bool
  green : Lamp
  amber : Lamp
  red : Lamp
  horn : Bool
  warnPending : Bool
  warnCount : Nat
  captureLocked : Bool
deriving DecidableEq, Repr

/-- The fields a reply carries after its status, as the owning rule of its request names them (R177). -/
inductive ReplyBody where
  | empty
  | identity (name : List Byte) (revision steps tapeEntries dispensers windows channels redo reports payload baud : Nat)
  | snapshot (s : Snapshot)
  | byte (b : Byte)
  | landmarks (p : LandmarkProfile)
  | channel (n : ChannelNo) (c : ChannelSettings) (staged : Bool)
  | window (n : Nat) (w : WindowSettings) (staged : Bool)
  | windowInput (n : InputNo) (count : Nat)
  | number (n : Nat)
  | axis (a : Axis) (r : AxisRec)
  | stations (q v r : Nat)
  | thresholds (depletion suspect : Nat)
  | dispenser (n : Nat) (d : Dispenser)
  | span (code : Nat) (position : Nat)
  | geometry (hx hy : Int) (settle margin : Nat)
  | cursor (c : Cursor)
  | stepRecords (first : Nat) (records : List (StepRecord × Bool))
  | panel (p : PanelSetup) (staged : Bool)
  | items (records : List (Nat × Nat × ItemRecord × Bool))
  | tapePosition (position : Nat) (reel : ReelState)
  | tapeWritten (count length : Nat)
  | tapeEntries (length position : Nat) (reel : ReelState) (entries : List (Nat × TapeEntry × Bool))
  | machine (m : MachineState)
  | causes (stopLine limit lock : Bool)
  | slots (slots : List (Nat × Slot))
  | redo (items : List (Item × Nat))
  | capture (c : Capture)
  | distance (d : Int)
  | force (force output : Bool)
deriving DecidableEq, Repr

/-- A reply: the kind of its request plus 128, the status, the fields (R177). -/
structure Reply where
  kind : Byte
  status : Status
  body : ReplyBody
deriving DecidableEq, Repr

/-- A frame the transmitter has put on the line: a reply, or a report with the overflow flag it carries (R180, R181). -/
inductive LineFrame where
  | reply (r : Reply)
  | report (r : Report) (overflow : Bool)
deriving DecidableEq, Repr

/-- The state of the receive framer and the bytes held since the SYNC of the frame in progress (R175). -/
inductive FramerState where
  | hunt | len
  | body (length : Nat)
  | check (length : Nat)
deriving DecidableEq, Repr

/-- The state of the Serial Link Interface (R173 to R186). inService and waiting hold the kinds of their requests;
baudNext is the speed code of a SET_BAUD in service and baudDue one whose reply has been sent; trailing holds the reports
that follow the STATE report of the event in progress, and is empty between events. -/
structure Lnk where
  baud : Nat
  baudNext : Option Nat
  baudDue : Option Nat
  framer : FramerState
  heldBytes : List Byte
  gapTimer : Option Nat
  inService : Option Byte
  waiting : Option Byte
  reply : Option Reply
  line : Option LineFrame
  queue : List Report
  overflow : Bool
  mask : Byte
  trailing : List Report
deriving DecidableEq, Repr

/-- The model's own: the microsecond within the current millisecond, and the counter that the free values are applied
to. -/
structure Clock where
  micro : Nat
  choice : Nat
deriving DecidableEq, Repr

/-- The state of the AX6: its nine blocks, the store of downloaded settings, the model's clock and the queue of commands
that wait, first in, first out. -/
structure State where
  msv : Msv
  stu : Stu
  wmu : Wmu
  pgs : Pgs
  sqc : Sqc
  tmu : Tmu
  mot : Mot
  fau : Fau
  lnk : Lnk
  store : Store
  clock : Clock
  pending : List Instr
deriving DecidableEq, Repr

/-! ### Reset values -/

/-- The dwell reason set with no token present. -/
def DwellSet.none : DwellSet := { table := false, fault := false, board := false, starved := false, tape := false }

/-- An input at full reset: accepted low, candidate count 0 (R49, R66); the pin is taken to be low. -/
def Filter.reset : Filter := { raw := false, accepted := false, candidate := 0 }

/-- The Machine Supervisor after a full reset (R23). -/
def Msv.reset : Msv :=
  { state := .unhomed, finishing := false, trip := false, brake := true, dwell := .none, run := none, atRest := true
    restTimer := 0, offHome := true, faultPending := false, single := none, commandedStop := false
    commitPassed := false, heldThrough := false, home := none }

/-- The default landmarks and shaft profile (R33). -/
def LandmarkProfile.reset : LandmarkProfile :=
  { close := 640, commit := 2240, opening := 2432, index := 3072, fire := 3584, verifyClose := 3968, offset := 0
    tolerance := 4, nominal := 15000, stall := 200 }

/-- A channel at full reset with the given default settings (R36, R46). -/
def Channel.reset (m : ChannelMode) (limit : Nat) : Channel :=
  { active := { mode := m, limit := limit }, staged := none, command := false, force := false, onTimer := 0
    locked := false, releaseTimer := 0, trigger := .spent, nextOpen := false, onTravel := 0 }

/-- The nine channels with the defaults of R36. -/
def Stu.resetChannels : Vector Channel 9 :=
  #v[.reset (.angle 128 1600) 300, .reset (.angle 384 640) 300, .reset (.angle 640 1024) 300,
     .reset (.angle 1024 1792) 300, .reset (.angle 1536 2304) 150, .reset (.angle 2048 2304) 300,
     .reset (.edge 4 .rise 64 256) 300, .reset (.angle 3072 3328) 300, .reset (.angle 3072 3328) 300]

/-- The Shaft Timing Unit after a full reset (R46). -/
def Stu.reset : Stu :=
  { angle := 0, synced := false, travel := Config.qualifiedTravel, retrace := 0, excursion := 0, lastReverse := false
    reverseRaised := false, indexInput := .reset, pointer := some .close, period := 0, periodValid := false
    periodTimer := none, engaged := false, stallTimer := none, cycle := 0, channels := Stu.resetChannels
    driveOn := false, indexFired := false }

/-- The settings of an UNUSED window (R66); its edge, angles and K are the model's (notes/assumptions/3.md). -/
def WindowSettings.reset : WindowSettings :=
  { role := .unused, input := none, edge := .rise, lo := 0, hi := 0, cls := none, burst := 0 }

/-- A window after a full reset (R66). -/
def Window.reset : Window :=
  { active := .reset, staged := none, isOpen := false, capture := none, lastCapture := none, mark := false
    history := [] }

/-- The head load record after either reset (R57). -/
def HeadLoad.reset : HeadLoad :=
  { content := .unknown, record := none, good := false, partMissed := false, driveDone := false, ejectMark := false
    ejectDone := false, lead1 := .none, lead2 := .none, gripped := false, returned := false }

/-- The Window Monitor after a full reset (R66). -/
def Wmu.reset : Wmu :=
  { inputs := #v[.reset, .reset, .reset, .reset, .reset, .reset, .reset, .reset, .reset, .reset, .reset, .reset]
    filterCounts := #v[3, 3, 3, 3, 3, 3, 3, 3, 3, 3, 3, 3]
    windows := #v[.reset, .reset, .reset, .reset, .reset, .reset, .reset, .reset, .reset, .reset, .reset, .reset]
    skewLimit := 0, head := .reset }

/-- What a position of the step table reads as when nothing has written it: the record of full reset (R67). -/
def StepRecord.reset : StepRecord :=
  { x := 0, y := 0, rot := 0, span := 0, dispenser := 0, barrier := false, skip := false }

/-- What a span code reads as when nothing has written it (R72). -/
def spanReset : Nat := 1000

/-- What an item reads as when nothing has changed it since panel start: PENDING, no tries, no reason (R75, R79). -/
def ItemRecord.fresh : ItemRecord := { state := .pending, tries := 0, reason := none }

/-- An image entry that holds nothing. -/
def Image.none : Image := { dx := 0, dy := 0, enabled := false }

/-- The panel setup of full reset: image 1 at (0, 0), enabled; origin (0, 0); maximum tries 3 (R74). -/
def PanelSetup.reset : PanelSetup :=
  { count := 1, image1 := { dx := 0, dy := 0, enabled := true }, image2 := .none, image3 := .none, image4 := .none
    ox := 0, oy := 0, maxTries := 3 }

/-- A cursor at full reset: position 0, HOLD (R68, R111). -/
def Cursor.reset : Cursor := { position := 0, mode := .hold }

/-- The Program Store after a full reset (R85), less the tables held in the store. -/
def Pgs.reset : Pgs :=
  { staged := none, active := .reset, items := [], panel := none, number := 0, boardChanged := false
    boardAway := false, boardRelease := none }

/-- A slot whose content is not known, its flags clear (R87). -/
def Slot.unknown : Slot := { content := .unknown, stray := false, judged := false }

/-- An EMPTY slot, its flags clear (R87). -/
def Slot.empty : Slot := { content := .empty, stray := false, judged := false }

/-- Dispenser d after a full reset: position d + 1, PLAIN, DISABLED (R101). -/
def Dispenser.reset (d : Nat) : Dispenser :=
  { position := d + 1, cls := .plain, state := .disabled, history := [], failures := 0 }

/-- The 48 dispensers after a full reset (R101). -/
def Sqc.resetDispensers : Vector Dispenser 48 :=
  #v[.reset 0, .reset 1, .reset 2, .reset 3, .reset 4, .reset 5, .reset 6, .reset 7, .reset 8, .reset 9, .reset 10,
     .reset 11, .reset 12, .reset 13, .reset 14, .reset 15, .reset 16, .reset 17, .reset 18, .reset 19, .reset 20,
     .reset 21, .reset 22, .reset 23, .reset 24, .reset 25, .reset 26, .reset 27, .reset 28, .reset 29, .reset 30,
     .reset 31, .reset 32, .reset 33, .reset 34, .reset 35, .reset 36, .reset 37, .reset 38, .reset 39, .reset 40,
     .reset 41, .reset 42, .reset 43, .reset 44, .reset 45, .reset 46, .reset 47]

/-- The value of VSEL that names no dispenser (R96). -/
def vselNone : Nat := 63

/-- The Sequencer Controller after a full reset (R109). -/
def Sqc.reset : Sqc :=
  { q := 56, v := 50, r := 52, chain := List.replicate 56 Slot.unknown, redo := []
    dispensers := Sqc.resetDispensers, frame := none, verdict := .closed, vsel := vselNone, vstrobe := .reset
    vcode := .noPart, dsp := none }

/-- The Tape Map Unit after a full reset (R124). -/
def Tmu.reset : Tmu :=
  { map := [], mapLength := 0, cursor := .reset, position := 0, jammed := false, mark := none, lastTaped := none
    mapEnd := false, gap := none, gapHeld := [], gapWait := none }

/-- The default rates (R126). -/
def Rates.reset : Rates := { rs := 2, rt := 20, a := 2 }

/-- An axis record after a full reset (R126, R142). -/
def AxisRec.reset : AxisRec :=
  { state := .unhomed, commanded := 0, feedback := 0, rates := .reset, staged := .reset, stagedFlag := false
    style := .stepDir, homeOffset := 0, searchLimit := 50000, following := 8, homePending := false
    homeInput := .reset, drive := .idle, tick := {}, pulse := {}, dirHigh := false }

/-- The Motion Unit after a full reset (R142, R155). -/
def Mot.reset : Mot :=
  { x := .reset, y := .reset, span := .reset, rot := .reset, cAxis := none, cGap := none, running := none
    held := none, settle := none, service := none, serviceSettle := none, settled := false, limit := .reset }

/-- The capture record after either reset (R172). -/
def Capture.reset : Capture := { content := none, locked := false, later := 0 }

/-- The Fault and Alarm Unit after a full reset (R172): the flash clock starts at the beginning of its on half. -/
def Fau.reset : Fau :=
  { capture := .reset, warnPending := false, warnCount := 0, horn := false, stopLine := .reset, flashOn := true
    flashTimer := 0 }

/-- The store after a full reset: the defaults of R33, R67, R68, R72, R102 and R135. -/
def Store.reset : Store :=
  { landmarks := .reset, steps := [], stepCount := 0, stepCursor := .reset, spans := [], depletion := 3, suspect := 2
    hx := 22000, hy := 18000, settleTime := 5, fitMargin := 2 }

/-- What the STATE report of full reset carries (R23). -/
def StateView.reset : StateView := { state := .unhomed, finishing := false, dwell := .none, run := none }

/-- The Serial Link Interface after a full reset (R186): 57,600 baud, every report kind but CYCLE enabled, and the STATE
report of R23 in the queue. -/
def Lnk.reset : Lnk :=
  { baud := 1, baudNext := none, baudDue := none, framer := .hunt, heldBytes := [], gapTimer := none
    inService := none, waiting := none, reply := none, line := none, queue := [.state .reset], overflow := false
    mask := 251, trailing := [] }

/-- The AX6 right after a full reset: every block at the value its chapter gives, no command waiting. -/
def State.reset : State :=
  { msv := .reset, stu := .reset, wmu := .reset, pgs := .reset, sqc := .reset, tmu := .reset, mot := .reset
    fau := .reset, lnk := .reset, store := .reset, clock := { micro := 0, choice := 0 }, pending := [] }

end Sys2Proof.Machine
end

