-- ==== Sys2Proof/Machine/Operands.lean ====
section
/-! DEFINITION. Reading the fields of a request: the codes of the named lists (R185), the clamping of tuning values and
the range tests of structural values (R178), and the records that requests write. -/

namespace Sys2Proof.Machine

/-- A tuning value outside its range is taken as the nearer end of it (R178). -/
def clamp (lo hi n : Nat) : Nat := if n < lo then lo else if hi < n then hi else n

/-- clamp over the integers, for the positions and distances that are signed. -/
def clampInt (lo hi n : Int) : Int := if n < lo then lo else if hi < n then hi else n

/-- A structural angle: 0 to 4,095, refused above (R42, R52). -/
def angleOf (w : Word16) : Option Angle := if w.toNat < 4096 then some (w.setWidth 12) else none

/-- A landmark angle: 1 to 4,095 (R33). -/
def landmarkOf (w : Word16) : Option Angle := if w.toNat = 0 then none else angleOf w

/-- A flag carried in a byte of its own is its bit 0; the other bits are unassigned and ignored (R185). -/
def flagOf (b : Byte) : Bool := b.getLsbD 0

/-- The advance mode codes of R68. -/
def advanceOf (b : Byte) : Option Advance :=
  if b = 0 then some .hold else if b = 1 then some .all else if b = 2 then some .write else none

/-- The run mode codes, in the order of R15. -/
def runModeOf (b : Byte) : Option RunMode :=
  if b = 0 then some .direct else if b = 1 then some .tapeOut else if b = 2 then some .tapeIn else none

/-- The role codes, in the order of R50. -/
def roleOf (b : Byte) : Option WindowRole :=
  match b.toNat with
  | 0 => some .unused
  | 1 => some .part
  | 2 => some .lead1
  | 3 => some .lead2
  | 4 => some .driver
  | 5 => some .chain
  | 6 => some .tape
  | 7 => some .guard
  | 8 => some .watch
  | _ => none

/-- The edge codes of a window, in the order of R51. -/
def windowEdgeOf (b : Byte) : Option WindowEdge :=
  match b.toNat with
  | 0 => some .rise
  | 1 => some .fall
  | 2 => some .high
  | 3 => some .low
  | _ => none

/-- An input number of R47: 0 to 11. -/
def inputOf (b : Byte) : Option InputNo := if h : b.toNat < 12 then some ⟨b.toNat, h⟩ else none

/-- A channel number of R36: 0 to 8. -/
def channelOf (b : Byte) : Option ChannelNo := if h : b.toNat < 9 then some ⟨b.toNat, h⟩ else none

/-- A window number of R51: 0 to 11. -/
def windowOf (b : Byte) : Option (Fin 12) := if h : b.toNat < 12 then some ⟨b.toNat, h⟩ else none

/-- A dispenser number of R101: 0 to 47. -/
def dispenserOf (b : Byte) : Option (Fin 48) := if h : b.toNat < 48 then some ⟨b.toNat, h⟩ else none

/-- The classes of a dispenser, in the order of R101. -/
def dispenserClassOf (b : Byte) : Option DispenserClass :=
  if b = 0 then some .plain else if b = 1 then some .polarized else none

/-- An axis number of R125: 0 to 3. -/
def axisOf (b : Byte) : Option Axis :=
  match b.toNat with
  | 0 => some .x
  | 1 => some .y
  | 2 => some .span
  | 3 => some .rot
  | _ => none

/-- The axis of a loop test: 0 X, 1 Y (R187). -/
def tableAxisOf (b : Byte) : Option TableAxis :=
  if b = 0 then some .x else if b = 1 then some .y else none

/-- The output style codes, in the order of R126. -/
def styleOf (b : Byte) : Option OutputStyle :=
  if b = 0 then some .stepDir else if b = 1 then some .cwCcw else none

/-- The sense codes of an EDGE channel: 0 RISE, 1 FALL (R185). -/
def senseOf (b : Byte) : Option Edge := if b = 0 then some .rise else if b = 1 then some .fall else none

/-- The axis of a feedback encoder among the four. -/
def tableAxis : TableAxis → Axis
  | .x => .x
  | .y => .y

/-- The upper soft limit of an axis; ROT is kept modulo one turn (R125). -/
def softLimit : Axis → Option Int
  | .x => some Config.xLimit
  | .y => some Config.yLimit
  | .span => some Config.spanLimit
  | .rot => none

/-- The classes a role allows (R50). -/
def roleAllows : WindowRole → FaultClass → Bool
  | .unused, _ => false
  | .chain, c => c == .s
  | .tape, c => c == .s
  | _, c => c == .w || c == .d || c == .s

/-- The default class of a role (R50); CHAIN and TAPE allow only S. -/
def roleDefault : WindowRole → Option FaultClass
  | .unused => none
  | .part => some .w
  | .lead1 => some .d
  | .lead2 => some .d
  | .driver => some .s
  | .chain => some .s
  | .tape => some .s
  | .guard => some .s
  | .watch => some .w

/-- The class field of SET_WINDOW: code 0 is ROLE_DEFAULT, 1 to 4 the classes of R185; refused where the role does not
allow the class (R52). The result is the class of the window, absent for UNUSED (notes/assumptions/20.md). -/
def windowClassOf (r : WindowRole) (b : Byte) : Option (Option FaultClass) :=
  let fixed (c : FaultClass) : Option (Option FaultClass) := if roleAllows r c then some (some c) else none
  match b.toNat with
  | 0 => some (roleDefault r)
  | 1 => fixed .w
  | 2 => fixed .d
  | 3 => fixed .s
  | _ => none

/-- The input a role fixes (R50); GUARD and WATCH take the input of the request, UNUSED none. -/
def windowInputOf (r : WindowRole) (b : Byte) : Option (Option InputNo) :=
  match r with
  | .unused => some none
  | .part => some (some 0)
  | .lead1 => some (some 1)
  | .lead2 => some (some 2)
  | .driver => some (some 3)
  | .chain => some (some 4)
  | .tape => some (some 5)
  | .guard => (inputOf b).map some
  | .watch => (inputOf b).map some

/-- The settings of the window form of SET_WINDOW, or refused with BAD_VALUE (R52), before the uniqueness of roles. -/
def windowSettingsOf (f : WindowFields) : Option WindowSettings := do
  let role ← roleOf f.role
  let edge ← windowEdgeOf f.edge
  let cls ← windowClassOf role f.cls
  let input ← windowInputOf role f.input
  let lo ← angleOf f.lo
  let hi ← angleOf f.hi
  if lo = hi then none
  else some { role := role, input := input, edge := edge, lo := lo, hi := hi, cls := cls
              burst := clamp 0 16 f.burst.toNat }

/-- The settings of SET_CHANNEL, or refused with BAD_VALUE (R42). The delay, the width and the overrun limit are clamped:
the delay to 0 to 4,095, the width to 1 to 4,095, the limit to 5 to 2,000 ms. -/
def channelSettingsOf (f : ChannelFields) : Option ChannelSettings :=
  let limit := clamp 5 2000 f.limit.toNat
  if f.mode = 0 then
    match angleOf (f.byte3 ++ f.byte2), angleOf f.word4 with
    | some on, some off => if on = off then none else some { mode := .angle on off, limit := limit }
    | _, _ => none
  else if f.mode = 1 then
    match inputOf f.byte2, senseOf f.byte3 with
    | some source, some sense =>
      some { mode := .edge source sense (clamp 0 4095 f.word4.toNat) (clamp 1 4095 f.word6.toNat), limit := limit }
    | _, _ => none
  else none

/-- The landmarks and shaft profile of SET_LANDMARKS, or refused with BAD_VALUE (R33): every landmark from 1 to 4,095 in
the order of the list, the index offset from 0 to 4,095. The tuning values are clamped. -/
def landmarksOf (f : LandmarkFields) : Option LandmarkProfile := do
  let close ← landmarkOf f.close
  let commit ← landmarkOf f.commit
  let opening ← landmarkOf f.opening
  let index ← landmarkOf f.index
  let fire ← landmarkOf f.fire
  let verifyClose ← landmarkOf f.verifyClose
  let offset ← angleOf f.offset
  if close < commit ∧ commit < opening ∧ opening < index ∧ index < fire ∧ fire < verifyClose then
    some { close := close, commit := commit, opening := opening, index := index, fire := fire
           verifyClose := verifyClose, offset := offset, tolerance := clamp 0 15 f.tolerance.toNat
           nominal := clamp 2000 65535 f.nominal.toNat, stall := clamp 20 2000 f.stall.toNat }
  else none

/-- The step record of STEP_WRITE, refused for a dispenser above 47 (R69). -/
def stepRecordOf (f : StepFields) : Option StepRecord :=
  if h : f.dispenser.toNat < 48 then
    some { x := f.x, y := f.y, rot := f.rot.toFin, span := f.span.toFin, dispenser := ⟨f.dispenser.toNat, h⟩
           barrier := f.barrier, skip := f.skip }
  else none

/-- An image entry of PANEL_SET (R73). -/
def imageOf (f : ImageFields) : Image := { dx := f.dx, dy := f.dy, enabled := flagOf f.enabled }

/-- The panel setup of PANEL_SET, or refused with BAD_VALUE for an image count outside 1 to 4 or no image enabled (R73).
The entries above the image count are ignored (R179): they are held as entries that hold nothing. -/
def panelSetupOf (f : PanelFields) : Option PanelSetup :=
  let n := f.count.toNat
  let image (i : Nat) (e : ImageFields) : Image := if i ≤ n then imageOf e else .none
  let p : PanelSetup :=
    { count := n, image1 := image 1 f.image1, image2 := image 2 f.image2, image3 := image 3 f.image3
      image4 := image 4 f.image4, ox := f.ox, oy := f.oy, maxTries := clamp 1 7 f.maxTries.toNat }
  if 1 ≤ n ∧ n ≤ 4 ∧ (p.image1.enabled || p.image2.enabled || p.image3.enabled || p.image4.enabled) then some p
  else none

/-- The tape map entry of TAPEMAP_WRITE, or refused with BAD_VALUE (R111); kinds are coded 1 ITEM, 2 BLANK, 3 PANEL_END
(R179). -/
def tapeEntryOf (f : TapeFields) : Option TapeEntry :=
  match f.kind.toNat with
  | 1 =>
    if h : f.step.toNat < 1024 then
      if h2 : 1 ≤ f.image.toNat ∧ f.image.toNat ≤ 4 then
        some (.item { step := ⟨f.step.toNat, h⟩, image := ⟨f.image.toNat - 1, by omega⟩ })
      else none
    else none
  | 2 => some .blank
  | 3 => some .panelEnd
  | _ => none

/-- The rates of SET_AXIS, clamped (R130): Rs and A to 1 to 8, Rt to the range from the new Rs to 40. -/
def ratesOf (f : AxisFields) : Rates :=
  let rs := clamp 1 8 f.startRate.toNat
  { rs := rs, rt := clamp rs 40 f.topRate.toNat, a := clamp 1 8 f.accel.toNat }

/-- The home offset of SET_AXIS, clamped to the axis's soft limits, 0 to 6,399 for ROT (R130). -/
def homeOffsetOf (a : Axis) (w : Word16) : Int :=
  clampInt 0 ((softLimit a).getD (Config.rotTurn - 1)) (Int.ofNat w.toNat)

/-- A count of records to read: 1 to 32, refused otherwise (R70, R78, R108, R112). -/
def readCountOf (b : Byte) : Option Nat := if 1 ≤ b.toNat ∧ b.toNat ≤ 32 then some b.toNat else none

end Sys2Proof.Machine
end

