-- ==== Sys2Proof/Machine/Flags.lean ====
section
/-! DEFINITION. What is judged from the state and changes nothing: the home condition, the gates of the channels, the
lamps, the causes of a fault, the reel state, the tables' readings and the counts that a reply or a report carries. -/

namespace Sys2Proof.Machine

/-! ### Tables -/

/-- The reading of a table at a position; an unlisted position reads as d. -/
def Table.read {α : Type} (d : α) : Table α → Nat → α
  | [], _ => d
  | (k, v) :: t, n => if n = k then v else Table.read d t n

/-- The canonical form of a table: positions strictly rising from lo and no entry equal to what an unlisted one reads as. -/
def Table.wfFrom {α : Type} [DecidableEq α] (d : α) : Nat → Table α → Bool
  | _, [] => true
  | lo, (k, v) :: t => decide (lo ≤ k) && decide (v ≠ d) && Table.wfFrom d (k + 1) t

/-- A table is in its canonical form. -/
def Table.wf {α : Type} [DecidableEq α] (d : α) (t : Table α) : Bool := Table.wfFrom d 0 t

/-! ### Machine state -/

/-- The machine state is RUNNING, in either sub-state. -/
def isRunning (s : State) : Bool :=
  match s.msv.state with
  | .running _ => true
  | _ => false

/-- The machine state is RUNNING or STOPPING. -/
def inRun (s : State) : Bool := isRunning s || s.msv.state == .stopping

/-- RUNNING, DWELL. -/
def inDwell (s : State) : Bool := s.msv.state == .running .dwell

/-- RUNNING, CYCLING. -/
def inCycling (s : State) : Bool := s.msv.state == .running .cycling

/-- The run mode of the run record (R15). -/
def runMode (s : State) : Option RunMode := s.msv.run.map (·.mode)

/-- No token is in the dwell reason set. -/
def dwellEmpty (s : State) : Bool := s.msv.dwell == .none

/-- What a STATE report carries (R1). -/
def stateView (s : State) : StateView :=
  { state := s.msv.state, finishing := s.msv.finishing, dwell := s.msv.dwell
    run := s.msv.run.map fun r => (r.mode, r.remaining) }

/-- The distance of an angle from angle 0: the smaller of a and 4,096 − a (R2). -/
def homeDistance (a : Angle) : Nat := min a.toNat (4096 - a.toNat)

/-- An axis is homed when its state is IDLE, MOVING or SETTLING (R126). -/
def AxisRec.homed (r : AxisRec) : Bool := r.state == .idle || r.state == .moving || r.state == .settling

/-- The record of an axis. -/
def Mot.axis (m : Mot) : Axis → AxisRec
  | .x => m.x
  | .y => m.y
  | .span => m.span
  | .rot => m.rot

/-- The four axes in the order of R125. -/
def allAxes : List Axis := [.x, .y, .span, .rot]

/-- All four axes are homed. -/
def allHomed (s : State) : Bool := s.mot.x.homed && s.mot.y.homed && s.mot.span.homed && s.mot.rot.homed

/-- The home condition (R2). -/
def homeCondition (s : State) : Bool := allHomed s && s.stu.synced && !s.msv.offHome && s.msv.atRest

/-- Some axis is MOVING or SETTLING. -/
def anyMoving (s : State) : Bool :=
  allAxes.any fun a => (s.mot.axis a).state == .moving || (s.mot.axis a).state == .settling

/-- A motion is in flight: a RUNNING plan, or a service operation that moves an axis. -/
def motionInFlight (s : State) : Bool :=
  s.mot.running.isSome ||
    (match s.mot.service with
     | some (.jog ..) => true
     | some (.loop ..) => true
     | _ => false)

/-! ### Inputs -/

/-- The accepted level of a filtered machine input. -/
def inputLevel (i : InputNo) (s : State) : Bool := s.wmu.inputs[i].accepted

/-- The accepted level of BOARD_PRESENT, input 6 (R47). -/
def boardPresent (s : State) : Bool := inputLevel 6 s

/-- The accepted level of TAPE_END, input 7 (R47). -/
def tapeEnd (s : State) : Bool := inputLevel 7 s

/-- The reel state (R113). -/
def reelState (s : State) : ReelState :=
  if s.tmu.jammed then .jammed else if tapeEnd s then .unthreaded else .ready

/-! ### Channels -/

/-- The nine channels in their order. -/
def allChannels : List ChannelNo := [0, 1, 2, 3, 4, 5, 6, 7, 8]

/-- CUT, FORM, DRIVE and CLINCH: the channels whose force needs a gate that SERVICE holds closed (R37). -/
def headDrive (i : ChannelNo) : Bool := i == 1 || i == 2 || i == 3 || i == 4

/-- The output of a channel: on when the command or the force is on and the lock is clear; the force of the channels of
headDrive is held off by their gates (R37). -/
def channelOutput (i : ChannelNo) (c : Channel) : Bool := !c.locked && (c.command || (c.force && !headDrive i))

/-- A dry revolution is in progress (R192). -/
def inDryRev (s : State) : Bool :=
  match s.msv.single with
  | some r => r.kind == .dry
  | none => false

/-- Switching by angle or edge is allowed for a channel: the angle is synchronized and the machine state is RUNNING or
STOPPING, or it is a dry revolution and the channel is GRIP or EJECT (R37). -/
def maySwitch (i : ChannelNo) (s : State) : Bool :=
  s.stu.synced && (inRun s || (s.msv.state == .service && inDryRev s && (i == 0 || i == 5)))

/-- The head load is an item (in state HEAD). -/
def headItem (s : State) : Option Item :=
  match s.wmu.head.content with
  | .item i => some i
  | _ => none

/-- The slot at a chain position from 1. -/
def slotAt (p : Nat) (s : State) : Slot := s.sqc.chain.getD (p - 1) .unknown

/-- The gate of a channel at its switch-on point (R40, R41). -/
def gateOpen (i : ChannelNo) (s : State) : Bool :=
  let h := s.wmu.head
  let item := (headItem s).isSome
  match i with
  | 0 => item || h.content == .unknown
  | 1 => item && h.good
  | 2 => item && h.good
  | 3 => item && h.good && !h.driveDone && s.mot.settled && !anyMoving s
  | 4 => item && s.stu.driveOn
  | 5 => h.content == .unknown || h.content == .surplus || h.ejectMark
  | 6 =>
    let slot := slotAt s.sqc.r s
    slot.stray || (match slot.content with
      | .item _ .rejected => true
      | _ => false)
  | 7 => runMode s == some .direct || runMode s == some .tapeOut
  | 8 => runMode s == some .tapeIn || (runMode s == some .tapeOut && s.stu.indexFired && s.tmu.lastTaped.isSome)

/-- Some overrun lock is set (R44). -/
def anyLocked (s : State) : Bool := allChannels.any fun i => s.stu.channels[i].locked

/-! ### Landmarks -/

/-- The angle of a landmark (R33). -/
def LandmarkProfile.angleOf (p : LandmarkProfile) : Landmark → Angle
  | .close => p.close
  | .commit => p.commit
  | .opening => p.opening
  | .index => p.index
  | .fire => p.fire
  | .verifyClose => p.verifyClose

/-- The landmarks in the order of their list. -/
def allLandmarks : List Landmark := [.close, .commit, .opening, .index, .fire, .verifyClose]

/-- The next landmark of the list; none at its end (R34). -/
def Landmark.next : Landmark → Option Landmark
  | .close => some .commit
  | .commit => some .opening
  | .opening => some .index
  | .index => some .fire
  | .fire => some .verifyClose
  | .verifyClose => none

/-- The first landmark whose angle is above a: where the pointer is placed at a synchronization (R27, R33). -/
def pointerAbove (p : LandmarkProfile) (a : Angle) : Option Landmark :=
  allLandmarks.find? fun l => decide (a < p.angleOf l)

/-- The clear window W in ac: the forward distance from OPEN to CLOSE (R33). -/
def clearWindow (p : LandmarkProfile) : Nat := (p.close - p.opening).toNat

/-! ### Steps, images and items -/

/-- The step record at a position (R67). -/
def stepAt (n : Nat) (s : State) : StepRecord := Table.read .reset s.store.steps n

/-- The step record of an item. -/
def stepOf (i : Item) (s : State) : StepRecord := stepAt i.step.val s

/-- The image entry of a panel setup, from 0; above the image count it counts as disabled (R73). -/
def PanelSetup.image (p : PanelSetup) (i : Fin 4) : Image :=
  let e := match i with
    | 0 => p.image1
    | 1 => p.image2
    | 2 => p.image3
    | 3 => p.image4
  if i.val < p.count then e else { e with enabled := false }

/-- The position of an item in work-list order: image by image, step by step (R75). -/
def Item.key (i : Item) : Nat := i.image.val * 1024 + i.step.val

/-- The item state table holds a record for the item: its step is below the step count and its image enabled (R75). -/
def hasItem (i : Item) (s : State) : Bool := decide (i.step.val < s.store.stepCount) && (s.pgs.active.image i.image).enabled

/-- The record of an item (R75). -/
def itemRec (i : Item) (s : State) : ItemRecord := Table.read .fresh s.pgs.items i.key

/-- The items of one image whose steps are below n, in step order. -/
def imageItems (image : Fin 4) (n : Nat) : List Item :=
  (List.range (min n 1024)).map fun k => { step := Fin.ofNat 1024 k, image := image }

/-- The items of the panel in work-list order (R75). -/
def workList (s : State) : List Item :=
  ([0, 1, 2, 3] : List (Fin 4)).flatMap fun i =>
    if (s.pgs.active.image i).enabled then imageItems i s.store.stepCount else []

/-- An item state is unfinished, in a panel of the given mode (R75): TAPED is finished in a TAPE_OUT panel. -/
def unfinishedIn (mode : Option RunMode) : ItemState → Bool
  | .pending => true
  | .chained => true
  | .redo => true
  | .head => true
  | .taped => !(mode == some .tapeOut)
  | _ => false

/-- Some item of the panel is unfinished. -/
def anyUnfinished (s : State) : Bool := (workList s).any fun i => unfinishedIn s.pgs.panel (itemRec i s).state

/-- The number of items in a state (R78). -/
def countState (st : ItemState) (s : State) : Nat := (workList s).countP fun i => (itemRec i s).state == st

/-- The item counts of STATUS and of a PANEL report (R78, R82). -/
def itemCounts (s : State) : ItemCounts :=
  { pending := countState .pending s, chained := countState .chained s, redo := countState .redo s
    head := countState .head s, inserted := countState .inserted s, suspect := countState .suspect s
    abandoned := countState .abandoned s, skipped := countState .skipped s, taped := countState .taped s }

/-- The item a slot holds: an ITEM in state ASSIGNED, LOADED or PASSED; a REJECTED slot only names its former item (R87). -/
def Slot.holds (c : Slot) : Option Item :=
  match c.content with
  | .item _ .rejected => none
  | .item i _ => some i
  | _ => none

/-! ### Targets (R143, R144) -/

/-- The board point of an item, turned by the step's quarter turn (R143). -/
def turnedPoint (i : Item) (s : State) : Int × Int :=
  let r := stepOf i s
  let im := s.pgs.active.image i.image
  let qx := r.x.toInt + im.dx.toInt + s.pgs.active.ox.toInt
  let qy := r.y.toInt + im.dy.toInt + s.pgs.active.oy.toInt
  match r.rot with
  | 0 => (qx, qy)
  | 1 => (-qy, qx)
  | 2 => (-qx, -qy)
  | 3 => (qy, -qx)

/-- The target of an axis for an item (R144). -/
def targetOf (i : Item) (a : Axis) (s : State) : Int :=
  match a with
  | .x => s.store.hx - (turnedPoint i s).1
  | .y => s.store.hy - (turnedPoint i s).2
  | .span => Int.ofNat (Table.read spanReset s.store.spans (stepOf i s).span.val)
  | .rot => 1600 * Int.ofNat (stepOf i s).rot.val

/-- The result of a reachability judgement (R144): 0 reachable, 1 X outside, 2 Y outside, 3 both. -/
def reach (i : Item) (s : State) : Nat :=
  let x := targetOf i .x s
  let y := targetOf i .y s
  (if 0 ≤ x ∧ x ≤ Config.xLimit then 0 else 1) + (if 0 ≤ y ∧ y ≤ Config.yLimit then 0 else 2)

/-! ### Alarms -/

/-- A cause of a fault is present: STOP_LINE high, LIMIT high, an overrun lock set (R166). -/
def causePresent (s : State) : Bool := s.fau.stopLine.accepted || s.mot.limit.accepted || anyLocked s

/-- LAMP_GREEN (R171). -/
def lampGreen (s : State) : Lamp :=
  match s.msv.state with
  | .running .cycling => .steady
  | .running .dwell => .flashing
  | .stopping => .flashing
  | _ => .off

/-- LAMP_AMBER (R171). -/
def lampAmber (s : State) : Lamp :=
  let d := s.msv.dwell
  if d.fault || d.board || d.starved || d.tape then .steady else if s.fau.warnPending then .flashing else .off

/-- LAMP_RED (R171). -/
def lampRed (s : State) : Lamp := if s.msv.state == .halted then .steady else .off

/-- The level of a lamp's output: a flashing lamp follows the flash clock (R171). -/
def lampLevel (l : Lamp) (s : State) : Bool :=
  match l with
  | .off => false
  | .steady => true
  | .flashing => s.fau.flashOn

/-- The severity of a class: H over S, S over D, D over W (R164). -/
def FaultClass.severity : FaultClass → Nat
  | .w => 0
  | .d => 1
  | .s => 2
  | .h => 3

/-- One item is earlier than another: by image number, then by step; an absent item counts as later than any (R164). -/
def itemEarlier (a b : Option Item) : Bool :=
  match a, b with
  | some a, some b => decide (a.key < b.key)
  | some _, none => true
  | none, _ => false

end Sys2Proof.Machine
end

