-- ==== Sys2Proof/Machine/Ops.lean ====
section
/-! DEFINITION. The shared operations: writing tables, queueing reports, raising and dropping the trip, class W and D
faults, returning an item, switching a channel off, and leaving RUNNING and STOPPING. -/

namespace Sys2Proof.Machine

/-! ### Tables -/

/-- Writing a position of a table, keeping the canonical form: writing what an unlisted position reads as removes the
entry. -/
def Table.write {α : Type} [DecidableEq α] (d : α) : Table α → Nat → α → Table α
  | [], n, v => if v = d then [] else [(n, v)]
  | (k, w) :: t, n, v =>
    if n < k then (if v = d then (k, w) :: t else (n, v) :: (k, w) :: t)
    else if n = k then (if v = d then t else (k, v) :: t)
    else (k, w) :: Table.write d t n v

/-- All the tables of a state are in their canonical form. -/
def Memory.wf (s : State) : Bool :=
  Table.wf StepRecord.reset s.store.steps && Table.wf spanReset s.store.spans && Table.wf ItemRecord.fresh s.pgs.items &&
    Table.wf TapeEntry.blank s.tmu.map

/-- Writing the record of an item (R75). -/
def setItemRec (i : Item) (r : ItemRecord) (s : State) : State :=
  { s with pgs := { s.pgs with items := Table.write .fresh s.pgs.items i.key r } }

/-- Writing the state of an item, keeping its tries. -/
def setItemState (i : Item) (st : ItemState) (s : State) : State :=
  setItemRec i { itemRec i s with state := st, reason := none } s

/-- An item becomes ABANDONED with a reason, its tries kept (R75). -/
def abandonItem (i : Item) (why : Reason) (s : State) : State :=
  setItemRec i { itemRec i s with state := .abandoned, reason := some why } s

/-! ### Reports -/

/-- The mask bit of a report kind (R179). -/
def Report.bit : Report → Nat
  | .state .. => 0
  | .fault .. => 1
  | .cycle .. => 2
  | .panel .. => 3
  | .dispenser .. => 4
  | .homeDone .. => 5
  | .testDone .. => 6
  | .tape .. => 7

/-- Queueing a report (R181, R182): a disabled kind is not queued; with 24 reports waiting it is lost and the overflow
flag is set. -/
def enqueue (r : Report) (s : State) : State :=
  if s.lnk.mask.getLsbD r.bit then
    if s.lnk.queue.length < Config.reportQueueMax then
      { s with lnk := { s.lnk with queue := s.lnk.queue ++ [r] } }
    else { s with lnk := { s.lnk with overflow := true } }
  else s

/-- Holding a report back until the STATE report of the event has been queued (R19, R20). -/
def enqueueAfter (r : Report) (s : State) : State :=
  { s with lnk := { s.lnk with trailing := s.lnk.trailing ++ [r] } }

/-- Queueing the reports held back. -/
def flushTrailing (s : State) : State :=
  s.lnk.trailing.foldl (fun t r => enqueue r t) { s with lnk := { s.lnk with trailing := [] } }

/-- Two views differ in what R1 reports: the state, the sub-state, the finishing flag or the dwell reason set. -/
def viewChanged (a b : StateView) : Bool := a.state != b.state || a.finishing != b.finishing || a.dwell != b.dwell

/-- The end of an event that began with the given view: one STATE report if the event made a change (R1), then the
reports that follow it. A further class S or H action in HALTED that changes none of the values queues none
(notes/assumptions/54.md). -/
def reportState (before : StateView) (s : State) : State :=
  flushTrailing (if viewChanged before (stateView s) then enqueue (.state (stateView s)) s else s)

/-- A TAPE report (R123). -/
def tapeReport (cause : TapeCause) (mapPosition : Option Nat) (s : State) : State :=
  enqueue (.tape cause s.tmu.position s.tmu.mapLength (reelState s) mapPosition) s

/-- A TAPE report of cause REEL when the reel state is no longer the given one (R113). -/
def reportReel (before : ReelState) (s : State) : State :=
  if reelState s = before then s else tapeReport .reel none s

/-- A PANEL report of the open panel (R82, R120). -/
def panelReport (mode : RunMode) (ending : PanelEnding) (s : State) : State :=
  enqueue (.panel s.pgs.number mode ending (workList s).length (itemCounts s)) s

/-! ### Clutch trip and brake -/

/-- Raising the trip (R3): the brake is released (R4), the stall timer starts (R30). -/
def raiseTrip (s : State) : State :=
  { s with
    msv := { s.msv with trip := true, brake := false, commandedStop := false, commitPassed := false
                        heldThrough := false }
    stu := { s.stu with stallTimer := some { time := s.store.landmarks.stall, elapsed := 0 } } }

/-- Dropping the trip; commanded says whether the drop makes a commanded stop at home (R7). The engaged flag is cleared
(R29) and the stall timer is not run while the trip is off (R30). A trip that is off stays as it is. -/
def dropTrip (commanded : Bool) (s : State) : State :=
  if s.msv.trip then
    { s with
      msv := { s.msv with trip := false, commandedStop := commanded }
      stu := { s.stu with engaged := false, stallTimer := none } }
  else s

/-- In RUNNING, DWELL with an empty dwell reason set and the shaft at rest, the trip is raised and the sub-state becomes
CYCLING (R11). -/
def raiseIfReady (s : State) : State :=
  if inDwell s && dwellEmpty s && s.msv.atRest then
    raiseTrip { s with msv := { s.msv with state := .running .cycling, finishing := false } }
  else s

/-- One event of the machine: its STATE report closes it (R1). -/
def event (f : State → State) (s : State) : State := reportState (stateView s) (f s)

/-- One event after which the supervisor looks at the dwell reason set again (R11). -/
def eventRun (f : State → State) (s : State) : State := reportState (stateView s) (raiseIfReady (f s))

/-! ### The dwell reason set -/

/-- Changing the dwell reason set. -/
def setDwell (f : DwellSet → DwellSet) (s : State) : State := { s with msv := { s.msv with dwell := f s.msv.dwell } }

/-- A pending FAULT addition enters the set (R10). -/
def addPendingFault (s : State) : State :=
  if s.msv.faultPending then
    { s with msv := { s.msv with faultPending := false, dwell := { s.msv.dwell with fault := true } } }
  else s

/-! ### Faults of class W and D -/

/-- The record of a fault at this moment (R156). -/
def faultRecord (k : FaultKind) (c : FaultClass) (item : Option Item) (pos : Option Nat) (angle : Angle) (detail : Int)
    (s : State) : FaultRecord :=
  { kind := k, cls := c, item := item, chainPos := pos, angle := angle, synced := s.stu.synced, cycle := s.stu.cycle
    detail := detail }

/-- Whether a fault offered to the capture record is taken into it (R163, R164). -/
def captureTakes (r : FaultRecord) (c : Capture) : Bool :=
  if r.cls = .w then false
  else if c.locked then
    match c.content with
    | none => true
    | some o => decide (o.cls.severity < r.cls.severity) ||
        (r.cls.severity == o.cls.severity && itemEarlier r.item o.item)
  else true

/-- The capture record after a fault is offered to it (R163, R164). -/
def captureAfter (r : FaultRecord) (c : Capture) : Capture :=
  if r.cls = .w then c
  else if c.locked then
    { c with content := if captureTakes r c then some r else c.content, later := min (c.later + 1) Config.countMax }
  else { content := some r, locked := true, later := 0 }

/-- Taking a fault: the capture record, then the FAULT report with its entered marker (R156). -/
def takeFault (r : FaultRecord) (s : State) : State :=
  let entered := captureTakes r s.fau.capture
  enqueue (.fault r entered) { s with fau := { s.fau with capture := captureAfter r s.fau.capture } }

/-- The class W action (R158). -/
def classW (s : State) : State :=
  { s with fau := { s.fau with warnPending := true, warnCount := min (s.fau.warnCount + 1) Config.countMax } }

/-- The class D action (R159): FAULT enters the set at once at rest, otherwise at the next COMMIT or rest (R10). -/
def classD (s : State) : State :=
  if s.msv.dwell.fault then s
  else if s.msv.atRest then setDwell (fun d => { d with fault := true }) s
  else { s with msv := { s.msv with faultPending := true } }

/-- Raising a fault of class W, at the current angle. -/
def raiseW (k : FaultKind) (item : Option Item) (pos : Option Nat) (detail : Int) (s : State) : State :=
  classW (takeFault (faultRecord k .w item pos s.stu.angle detail s) s)

/-- Raising a fault of class D, at the current angle. -/
def raiseD (k : FaultKind) (item : Option Item) (pos : Option Nat) (detail : Int) (s : State) : State :=
  classD (takeFault (faultRecord k .d item pos s.stu.angle detail s) s)

/-! ### Returning an item (R77) -/

/-- The mode that places a returned item: that of the run, or with no run active that of the open panel (R77). -/
def returnMode (s : State) : Option RunMode :=
  match s.msv.run with
  | some r => some r.mode
  | none => s.pgs.panel

/-- A returned item joins the redo queue in DIRECT or TAPE_OUT while it holds fewer than 16 items; otherwise it becomes
PENDING (R77). -/
def placeReturned (i : Item) (s : State) : State :=
  if (returnMode s == some .direct || returnMode s == some .tapeOut) && decide (s.sqc.redo.length < Config.redoMax) then
    let t := setItemState i .redo s
    { t with sqc := { t.sqc with redo := t.sqc.redo ++ [i] } }
  else setItemState i .pending s

/-- A return with a try brings the item to the maximum tries (R77). -/
def triesOut (i : Item) (s : State) : Bool := decide ((itemRec i s).tries + 1 = s.pgs.active.maxTries)

/-- A return with a try, less the fault that an abandoned item raises (R77). -/
def returnTried (i : Item) (s : State) : State :=
  let t := setItemRec i { itemRec i s with tries := (itemRec i s).tries + 1 } s
  if triesOut i s then abandonItem i .tries t else placeReturned i t

/-- ITEM_ABANDONED for an item whose tries have reached the maximum (R77, R157). -/
def raiseAbandoned (i : Item) (s : State) : State :=
  raiseW .itemAbandoned (some i) none (Int.ofNat (itemRec i s).tries) s

/-- A return with a try (R77). -/
def returnWithTry (i : Item) (s : State) : State :=
  if triesOut i s then raiseAbandoned i (returnTried i s) else returnTried i s

/-- Every item of a list goes back to PENDING, its tries kept. -/
def pendAll (items : List Item) (s : State) : State := items.foldl (fun t i => setItemState i .pending t) s

/-! ### Channels -/

/-- Replacing the record of a channel. -/
def setChannelRec (i : ChannelNo) (c : Channel) (s : State) : State :=
  { s with stu := { s.stu with channels := s.stu.channels.set i.val c } }

/-- The on-timer returns to 0 when the output goes off (R43). -/
def timed (i : ChannelNo) (c : Channel) : Channel := if channelOutput i c then c else { c with onTimer := 0 }

/-- A trigger whose pulse is over: spent, or open at once where a BOUNDARY has opened the next capture (R39). -/
def pulseOver (c : Channel) : Channel :=
  { c with trigger := if c.nextOpen then .opened else .spent, nextOpen := false }

/-- A channel's command goes off; a running edge trigger is over. -/
def Channel.commandOff (i : ChannelNo) (c : Channel) : Channel :=
  let d := { c with command := false, onTravel := 0 }
  timed i (if d.trigger = .running then pulseOver d else d)

/-- A channel's command goes off and its trigger becomes spent: its state allows no switching (R37). -/
def Channel.quiet (i : ChannelNo) (c : Channel) : Channel :=
  timed i { c with command := false, onTravel := 0, trigger := .spent, nextOpen := false }

/-- Changing every channel in its own record. -/
def mapChannels (f : ChannelNo → Channel → Channel) (s : State) : State :=
  allChannels.foldl (fun t i => setChannelRec i (f i t.stu.channels[i]) t) s

/-- A channel's command goes off. -/
def commandOff (i : ChannelNo) (s : State) : State := setChannelRec i (s.stu.channels[i].commandOff i) s

/-- Adoption of pending channel settings (R42). A command that is on stays on until the new off-angle, or until the
crossings since it went on reach the new width; a channel that is off waits. -/
def Channel.adopt (i : ChannelNo) (c : Channel) : Channel :=
  match c.staged with
  | none => c
  | some st =>
    let d := { c with active := st, staged := none }
    match st.mode with
    | .angle _ _ => { d with trigger := .spent, nextOpen := false }
    | .edge _ _ _ width =>
      if d.command then
        if width ≤ d.onTravel then Channel.commandOff i { d with trigger := .running }
        else { d with trigger := .running }
      else
        match c.active.mode with
        | .edge .. => d
        | .angle .. => { d with trigger := .spent, nextOpen := false }

/-- CUT, FORM, DRIVE and CLINCH go off at once when the head load is no longer an item judged good (R40). -/
def dropHeadChannels (s : State) : State :=
  if (headItem s).isSome && s.wmu.head.good then s
  else mapChannels (fun i c => if headDrive i && c.command then c.commandOff i else c) s

/-- Changing the head load record, with what R40 makes of it. -/
def setHead (h : HeadLoad) (s : State) : State := dropHeadChannels { s with wmu := { s.wmu with head := h } }

/-! ### Windows -/

/-- Closing a window with no evaluation: its capture is discarded and its since-close mark cleared (R53, R55). -/
def Window.shut (w : Window) : Window :=
  if w.isOpen then { w with isOpen := false, capture := none, mark := false } else w

/-- Adoption of pending window settings (R52): the window is reset whatever the settings. -/
def Window.adopt (w : Window) : Window :=
  match w.staged with
  | none => w
  | some st =>
    { active := st, staged := none, isOpen := false, capture := none, lastCapture := none, mark := false, history := [] }

/-- Changing every window in its own record. -/
def mapWindows (f : Window → Window) (s : State) : State :=
  { s with wmu := { s.wmu with windows := s.wmu.windows.map f } }

/-! ### Leaving RUNNING and STOPPING -/

/-- What every block does when the machine state leaves RUNNING and STOPPING: windows close unevaluated (R53) and pending
settings are adopted (R42, R52); no channel may be switched (R37); the fire frame is discarded, the verdict window closed
and VSEL set to 63 (R107); the delivery mark is cleared (R118); the settled report is withdrawn (R155), also
where a STOP in DWELL leaves RUNNING (notes/assumptions/63.md); the run record is cleared and every token but FAULT is removed
(R9, R17). -/
def leaveRun (m : MachineState) (s : State) : State :=
  let t := mapChannels (fun i c => (c.quiet i).adopt i) (mapWindows (fun w => w.shut.adopt) s)
  { t with
    msv := { t.msv with state := m, finishing := false, run := none
                        dwell := { DwellSet.none with fault := t.msv.dwell.fault } }
    sqc := { t.sqc with frame := none, verdict := .closed, vsel := vselNone }
    tmu := { t.tmu with mark := none }
    mot := { t.mot with settled := false } }

/-- A change of the machine state to one outside RUNNING and STOPPING. -/
def enterState (m : MachineState) (s : State) : State :=
  if inRun s then leaveRun m s
  else mapChannels (fun i c => c.quiet i) { s with msv := { s.msv with state := m, finishing := false } }

/-- The end of a run (R17): CYCLING becomes STOPPING, DWELL becomes STOPPED at once, which
withdraws the settled report (notes/assumptions/63.md); a second end changes nothing. -/
def endRun (s : State) : State :=
  match s.msv.state with
  | .running .cycling => { s with msv := { s.msv with state := .stopping } }
  | .running .dwell => leaveRun .stopped s
  | _ => s

end Sys2Proof.Machine
end

