-- ==== Sys2Proof/Machine/Panel.lean ====
section
/-! DEFINITION. Assignment (R90 to R92), starvation (R104), panel start and panel end with their part in the run and on
the tape (R16, R79 to R83, R117). -/

namespace Sys2Proof.Machine

/-! ### Assignment -/

/-- The dispenser of an item is ENABLED (R90). -/
def dispenserEnabled (i : Item) (s : State) : Bool := s.sqc.dispensers[(stepOf i s).dispenser].state == .enabled

/-- Assignment judges the item's target, and finds it unreachable: only in DIRECT (R92). -/
def outOfReach (i : Item) (s : State) : Bool := runMode s == some .direct && reach i s != 0

/-- What a search for an item met: the unreachable items it abandons, in order, and the item it takes. -/
structure Search where
  abandoned : List Item
  chosen : Option Item
deriving DecidableEq, Repr

/-- The search of the redo queue, oldest first (R90): items whose dispenser is not ENABLED keep their places. -/
def searchRedo (s : State) : List Item → Search
  | [] => { abandoned := [], chosen := none }
  | i :: rest =>
    if !dispenserEnabled i s then searchRedo s rest
    else if outOfReach i s then
      let r := searchRedo s rest
      { r with abandoned := i :: r.abandoned }
    else { abandoned := [], chosen := some i }

/-- The PENDING scan in work-list order (R90): it stops at a barrier item while an earlier item is unfinished (R91). -/
def searchPending (s : State) : Bool → List Item → Search
  | _, [] => { abandoned := [], chosen := none }
  | blocked, i :: rest =>
    let st := (itemRec i s).state
    if st == .pending then
      if (stepOf i s).barrier && blocked then { abandoned := [], chosen := none }
      else if !dispenserEnabled i s then searchPending s true rest
      else if outOfReach i s then
        let r := searchPending s blocked rest
        { r with abandoned := i :: r.abandoned }
      else { abandoned := [], chosen := some i }
    else searchPending s (blocked || unfinishedIn s.pgs.panel st) rest

/-- An item leaves the redo queue. -/
def leaveRedo (i : Item) (s : State) : State :=
  { s with sqc := { s.sqc with redo := s.sqc.redo.filter (fun j => decide (j ≠ i)) } }

/-- An unreachable item becomes ABANDONED with reason RANGE, leaves the redo queue, and raises TARGET_RANGE (R92). -/
def abandonRange (i : Item) (pos : Option Nat) (s : State) : State :=
  raiseW .targetRange (some i) pos (Int.ofNat (reach i s)) (leaveRedo i (abandonItem i .range s))

/-- The item assignment takes: from the redo queue, or from the PENDING scan that sees what the search of the queue
abandoned (R90). -/
def assignSearch (s : State) : Search :=
  let a := searchRedo s s.sqc.redo
  if a.chosen.isSome then a
  else
    let b := searchPending (a.abandoned.foldl (fun t i => abandonItem i .range t) s) false (workList s)
    { abandoned := a.abandoned ++ b.abandoned, chosen := b.chosen }

/-- Assignment of the new slot at position 1 (R90): the unreachable items met are abandoned, the chosen item becomes
CHAINED; with no panel open or nothing found the slot is EMPTY. -/
def assign (s : State) : State × Slot :=
  if s.pgs.panel.isNone then (s, .empty)
  else
    let found := assignSearch s
    let t := found.abandoned.foldl (fun t i => abandonRange i (some 1) t) s
    match found.chosen with
    | none => (t, .empty)
    | some i => (leaveRedo i (setItemState i .chained t), { content := .item i .assigned, stray := false, judged := false })

/-! ### Starvation (R104) -/

/-- The run is starved. The judgement takes nothing and abandons nothing. -/
def starved (s : State) : Bool :=
  s.sqc.chain.all (fun c => c.holds.isNone) && (headItem s).isNone && (assignSearch s).chosen.isNone && anyUnfinished s

/-- Starvation is judged in RUNNING, in a run of mode DIRECT or TAPE_OUT with a panel open. -/
def judgesStarvation (s : State) : Bool :=
  isRunning s && s.pgs.panel.isSome && (runMode s == some .direct || runMode s == some .tapeOut)

/-- A judgement of starvation: STARVED is added when the run is starved. -/
def judgeStarved (s : State) : State :=
  if judgesStarvation s && starved s then setDwell (fun d => { d with starved := true }) s else s

/-! ### Panel start (R79) -/

/-- Adopting a staged panel setup (R74). -/
def adoptSetup (s : State) : State :=
  match s.pgs.staged with
  | none => s
  | some p => { s with pgs := { s.pgs with active := p, staged := none } }

/-- The item state table at a panel start: every item PENDING but those whose step has SKIP set (R79). -/
def startItems (s : State) : Table ItemRecord :=
  (workList s).filterMap fun i =>
    if (stepOf i s).skip then some (i.key, { state := .skipped, tries := 0, reason := none }) else none

/-- The five parts of a panel start (R79). -/
def openPanel (mode : RunMode) (s : State) : State :=
  let t := adoptSetup s
  setDwell (fun d => { d with board := false })
    { t with pgs := { t.pgs with items := startItems t, panel := some mode, number := t.pgs.number + 1
                                 boardChanged := false } }

/-! ### The end of a TAPE_OUT pass on the reel (R117) -/

/-- Writing an entry at the map length, which goes up by one; a full map takes nothing. -/
def appendEntry (e : TapeEntry) (s : State) : State :=
  if s.tmu.mapLength < Config.tapeMax then
    { s with tmu := { s.tmu with map := Table.write .blank s.tmu.map s.tmu.mapLength e
                                 mapLength := s.tmu.mapLength + 1 } }
  else s

/-- A TAPE_GAP pulse, held while another runs or is held (R117). -/
def pulseGap (two : Bool) (s : State) : State :=
  if s.tmu.gap.isSome || !s.tmu.gapHeld.isEmpty then
    { s with tmu := { s.tmu with gapHeld := s.tmu.gapHeld ++ [two] } }
  else { s with tmu := { s.tmu with gap := some (two, 0) } }

/-- The append at the end of a pass: PANEL_END and BLANK, one TAPE_FULL for what finds the map full, the pulse for what
was written, and the TAPE report of cause PASS_END. -/
def passEndAppend (s : State) : State :=
  let n := s.tmu.mapLength
  let t := appendEntry .blank (appendEntry .panelEnd s)
  let t := if t.tmu.mapLength < n + 2 then raiseD .tapeFull none none 4096 t else t
  let t := if t.tmu.mapLength = n then t else pulseGap (decide (t.tmu.mapLength = n + 2)) t
  tapeReport .passEnd (some n) t

/-! ### Panel end (R82) -/

/-- A panel of mode DIRECT or TAPE_IN has a board. -/
def hasBoard (mode : RunMode) : Bool := mode == .direct || mode == .tapeIn

/-- BOARD_RELEASE is pulsed high; a pulse already running goes on (R82, R85). -/
def pulseBoard (s : State) : State :=
  if s.pgs.boardRelease.isSome then s else { s with pgs := { s.pgs with boardRelease := some 0 } }

/-- The first three parts of a panel end: the PANEL report, the BOARD_RELEASE pulse, the closing of the panel. -/
def closePanel (mode : RunMode) (ending : PanelEnding) (s : State) : State :=
  let t := panelReport mode ending s
  let t := if hasBoard mode then pulseBoard t else t
  { t with pgs := { t.pgs with panel := none, boardChanged := false } }

/-- The supervisor takes a panel end in RUNNING (R16): 0 panels remaining runs on; otherwise the count goes down, and at
0 the run ends. The flag says whether the run goes on. -/
def countPanel (s : State) : State × Bool :=
  match s.msv.run with
  | none => (s, false)
  | some r =>
    if r.remaining = 0 then (s, true)
    else
      let t := { s with msv := { s.msv with run := some { r with remaining := r.remaining - 1 } } }
      if r.remaining = 1 then (endRun t, false) else (t, true)

/-- A panel end (R82). What the next pass of a TAPE_OUT run does at once is a parameter. -/
def panelEndWith (nextPass : State → State) (ending : PanelEnding) (s : State) : State :=
  match s.pgs.panel with
  | none => s
  | some mode =>
    let t := closePanel mode ending s
    let counted := if isRunning t then countPanel t else (t, false)
    let t := if mode = .tapeOut ∧ ending = .complete then passEndAppend counted.1 else counted.1
    if counted.2 then
      if hasBoard mode then setDwell (fun d => { d with board := true }) t else nextPass t
    else t

/-- An empty panel ends at once as the last of its run (R81). -/
def endEmpty (s : State) : State :=
  panelEndWith id .complete
    { s with msv := { s.msv with run := s.msv.run.map fun r => { r with remaining := 1 } } }

/-- A panel start in a run, with the end of an empty panel (R81) or the judgement of starvation (R104). -/
def startPanel (mode : RunMode) (s : State) : State :=
  let t := openPanel mode s
  if anyUnfinished t then judgeStarved t else endEmpty t

/-- A panel end (R82); a TAPE_OUT run that goes on starts its next pass at once. -/
def panelEnd (ending : PanelEnding) (s : State) : State := panelEndWith (startPanel .tapeOut) ending s

/-- The test for panel end: the open panel ends when no item is unfinished (R82). -/
def panelTest (s : State) : State :=
  if s.pgs.panel.isSome && !anyUnfinished s then panelEnd .complete s else s

/-- A panel start is allowed with no panel open in RUNNING: in TAPE_OUT, or in DIRECT and TAPE_IN with BOARD_PRESENT high
and board-changed set (R79). -/
def mayStartPanel (s : State) : Bool :=
  isRunning s && s.pgs.panel.isNone &&
    (match runMode s with
     | some .tapeOut => true
     | some _ => s.pgs.boardChanged && boardPresent s
     | none => false)

/-- A panel start, where R79 allows one. -/
def tryStartPanel (s : State) : State :=
  match runMode s with
  | some mode => if mayStartPanel s then startPanel mode s else s
  | none => s

end Sys2Proof.Machine
end

