-- ==== Sys2Proof/Machine/Faults.lean ====
section
/-! DEFINITION. The class S and class H actions, block by block (R160, R161), and raising a fault of any class. -/

namespace Sys2Proof.Machine

/-! ### Axes and service operations -/

/-- Replacing the record of an axis. -/
def Mot.setAxis (m : Mot) (a : Axis) (r : AxisRec) : Mot :=
  match a with
  | .x => { m with x := r }
  | .y => { m with y := r }
  | .span => { m with span := r }
  | .rot => { m with rot := r }

/-- Replacing the record of an axis in the state. -/
def setAxisRec (a : Axis) (r : AxisRec) (s : State) : State := { s with mot := s.mot.setAxis a r }

/-- Changing every axis in its own record. -/
def mapAxes (f : AxisRec → AxisRec) (s : State) : State :=
  { s with mot := { s.mot with x := f s.mot.x, y := f s.mot.y, span := f s.mot.span, rot := f s.mot.rot } }

/-- The forward travel of the single revolution in progress. -/
def singleTravel (s : State) : Int :=
  match s.msv.single with
  | some r => r.travel
  | none => 0

/-- What the TEST_DONE report of an operation carries (R189). -/
def testDoneOf (op : ServiceOp) (result : DoneResult) (kind : Option FaultKind) (s : State) : TestDone :=
  match op with
  | .jog a _ _ =>
    { operation := .jog, result := result, kind := kind, axis := some a, intern := none, moves := none
      mismatches := none, value := some (s.mot.axis a).commanded }
  | .dry _ =>
    { operation := .dryCycle, result := result, kind := kind, axis := none, intern := none, moves := none
      mismatches := none, value := some (singleTravel s) }
  | .loop a intern _ moves bad _ _ _ =>
    { operation := .loopTest, result := result, kind := kind, axis := some (tableAxis a), intern := some intern
      moves := some moves, mismatches := some bad, value := none }

/-- An INTERNAL loop test that ends loads the commanded position and the feedback count with the values it saved (R194), so that a
push of the table during the test leaves no trace in them (notes/assumptions/58.md). -/
def restoreLoop (op : ServiceOp) (s : State) : State :=
  match op with
  | .loop a true _ _ _ c f _ => setAxisRec (tableAxis a) { s.mot.axis (tableAxis a) with commanded := c, feedback := f } s
  | _ => s

/-- The end of a service operation: its TEST_DONE report (R189). -/
def finishService (op : ServiceOp) (result : DoneResult) (kind : Option FaultKind) (s : State) : State :=
  let t := restoreLoop op (enqueue (.testDone (testDoneOf op result kind s)) s)
  { t with mot := { t.mot with service := none, serviceSettle := none } }

/-- The result and the fault kind that the cause of an early end gives (R189). -/
def EndCause.result : EndCause → DoneResult × Option FaultKind
  | .none => (.done, Option.none)
  | .stop => (.aborted, Option.none)
  | .fault k => (.failed, some k)

/-- A class S fault marks a service operation, also one that a STOP has marked, unless an earlier fault has
(notes/assumptions/57.md). -/
def EndCause.failed (k : FaultKind) : EndCause → EndCause
  | .fault j => .fault j
  | _ => .fault k

/-! ### The parts of the class S and H actions -/

/-- The supervisor's part (R3, R4, R20, R21): the trip dropped, the brake applied, no commanded stop, no single
revolution; a HOME in flight fails; HALTED is entered, which ends a run and leaves service mode. A stop that COMMIT or R5 had
commanded before the fault is no commanded stop either (notes/assumptions/53.md). -/
def haltSupervisor (k : FaultKind) (s : State) : State :=
  let t := dropTrip false s
  let t := if t.msv.home.isSome then enqueue (.homeDone .failed (some k)) t else t
  enterState .halted { t with msv := { t.msv with brake := true, commandedStop := false, home := none } }

/-- The Shaft Timing Unit's part (R45): commands and forces off, edge triggers spent, the engaged flag clear. -/
def haltShaft (s : State) : State :=
  let t := mapChannels (fun i c => ({ c with force := false } : Channel).quiet i) s
  { t with stu := { t.stu with engaged := false } }

/-- The head load after a class S or H action (R64): the item of record and the flags are cleared, except the eject mark. -/
def HeadLoad.halted (h : HeadLoad) (c : HeadContent) : HeadLoad :=
  { HeadLoad.reset with content := c, ejectMark := h.ejectMark }

/-- The item in the head leaves it before an OPEN has settled it, under a class S or H action (R64) or at INDEX
(notes/assumptions/55.md): one not yet driven is returned without a try and the content is UNKNOWN; a driven one becomes SUSPECT and
the content EMPTY. -/
def itemLeaves (s : State) : State :=
  match s.wmu.head.content with
  | .item i =>
    if s.wmu.head.driveDone then setHead (s.wmu.head.halted .empty) (setItemState i .suspect s)
    else setHead (s.wmu.head.halted .unknown) (placeReturned i s)
  | _ => s

/-- An axis under a class S action (R139): a search ends with its tick, an axis that waits becomes UNHOMED, home pending
is cleared, a running jog ends with its tick (R189). A search whose direction level is still being set up counts as in its tick, and runs
it (notes/assumptions/31.md). -/
def AxisRec.stopSearch (r : AxisRec) : AxisRec :=
  let r := { r with homePending := false }
  match r.state, r.drive with
  | .homing, .search back rate issued turning _ => { r with drive := .search back rate issued turning true }
  | .homing, _ => { r with state := .unhomed }
  | _, _ => r

/-- A running jog completes its tick, also one whose set-up time still runs (notes/assumptions/31.md), and issues no further pulse
(R189, R190). -/
def AxisRec.stopJog (r : AxisRec) : AxisRec :=
  match r.drive with
  | .jog p rate _ => { r with drive := .jog p rate true }
  | _ => r

/-- The service operation under a class S action (R189): a dry revolution fails at once, the others at their settle end. -/
def stopService (k : FaultKind) (s : State) : State :=
  match s.mot.service with
  | some (.jog a counted c) => { s with mot := { s.mot with service := some (.jog a counted (c.failed k)) } }
  | some (.loop a n w m b x y c) => { s with mot := { s.mot with service := some (.loop a n w m b x y (c.failed k)) } }
  | some (.dry c) => finishService (.dry c) .failed (some k) s
  | none => s

/-- The Motion Unit's part of a class S action (R141): a HELD plan is discarded, a RUNNING move goes on, searches end. -/
def stopMotion (k : FaultKind) (s : State) : State :=
  stopService k
    (mapAxes (fun r => r.stopSearch.stopJog) { s with mot := { s.mot with held := none, settled := false } })

/-- Nothing more is issued to an axis; a pulse already begun completes (R138, R141). -/
def AxisRec.still (r : AxisRec) : AxisRec := { r with drive := .idle, tick := {} }

/-- An axis cut by a class H action or by RESTART (R141): the rest of its tick is dropped, UNHOMED. -/
def AxisRec.cut (r : AxisRec) : AxisRec := { r.still with state := .unhomed, homePending := false }

/-- Every generator stops at once, every motion is cut, every axis becomes UNHOMED (R141). -/
def cutMotion (s : State) : State :=
  mapAxes AxisRec.cut
    { s with mot := { s.mot with cAxis := none, cGap := none, running := none, held := none, settle := none
                                 serviceSettle := none, settled := false } }

/-- The Motion Unit's part of a class H action (R161): every motion is cut and a service operation fails at once, with the kind of this
fault also where a class S fault had marked it (notes/assumptions/57.md). -/
def haltMotion (k : FaultKind) (s : State) : State :=
  let t := cutMotion s
  match t.mot.service with
  | some op => finishService op .failed (some k) t
  | none => t

/-- The single revolution ends with the class action (R5). -/
def endSingle (s : State) : State := { s with msv := { s.msv with single := none } }

/-- The class S action (R160), and with hard set the class H action (R161). The run is ended before the item in the head
is placed, so the mode of the open panel places it; the panel end is tested last. In HALTED a further action queues a STATE report
only where it changes what R1 reports (notes/assumptions/54.md). -/
def haltAction (hard : Bool) (k : FaultKind) (s : State) : State :=
  let t := itemLeaves (haltShaft (haltSupervisor k s))
  let t := endSingle (if hard then haltMotion k t else stopMotion k t)
  panelTest { t with fau := { t.fau with horn := true } }

/-- Raising a fault of any class at a given angle (R156): the record, the report, the action of its class. -/
def raiseAt (k : FaultKind) (c : FaultClass) (item : Option Item) (pos : Option Nat) (angle : Angle) (detail : Int)
    (s : State) : State :=
  let t := takeFault (faultRecord k c item pos angle detail s) s
  match c with
  | .w => classW t
  | .d => classD t
  | .s => haltAction false k t
  | .h => haltAction true k t

/-- Raising a fault of any class at the current angle. -/
def raiseFault (k : FaultKind) (c : FaultClass) (item : Option Item) (pos : Option Nat) (detail : Int) (s : State) :
    State :=
  raiseAt k c item pos s.stu.angle detail s

end Sys2Proof.Machine
end

