-- ==== Sys2Proof/Machine/Motion.lean ====
section
/-! DEFINITION. The Motion Unit: tick profiles and move plans (R145 to R155), the ticks of the generators (R128, R129),
settling and the following check (R133, R134), homing (R136 to R139), and the shaft phase of HOME (R19, R20). -/

namespace Sys2Proof.Machine

/-! ### The tick profile (R146) -/

/-- The ramp rate r_k. -/
def rampRate (r : Rates) (k : Nat) : Nat := min (r.rs + k * r.a) r.rt

/-- The ramp length K: the first k at which r_k equals Rt. -/
def rampLength (r : Rates) : Nat := (r.rt - r.rs + (r.a - 1)) / r.a

/-- The ramp sum S(m). -/
def rampSum (r : Rates) : Nat → Nat
  | 0 => 0
  | m + 1 => rampSum r m + rampRate r m

/-- The largest m from 0 to the given bound with 2·S(m) ≤ N. -/
def rampCount (r : Rates) (n : Nat) : Nat → Nat
  | 0 => 0
  | k + 1 => if 2 * rampSum r (k + 1) ≤ n then k + 1 else rampCount r n k

/-- The middle ticks: every one but the last carries p, the last what is left. -/
def middleTicks (p l : Nat) : List Nat :=
  let m := (l + (p - 1)) / p
  if m = 0 then [] else List.replicate (m - 1) p ++ [l - (m - 1) * p]

/-- The tick profile of a distance (R146): the up ramp, the middle ticks, the down ramp. -/
def tickProfile (r : Rates) (n : Nat) : List Nat :=
  let m := rampCount r n (rampLength r)
  let up := (List.range m).map (rampRate r)
  up ++ middleTicks (rampRate r m) (n - 2 * rampSum r m) ++ up.reverse

/-! ### Rates and outputs -/

/-- Pending rates are adopted when the axis takes up a motion (R131). -/
def AxisRec.adoptRates (r : AxisRec) : AxisRec :=
  if r.stagedFlag then { r with rates := r.staged, stagedFlag := false } else r

/-- A tick is about to begin in a direction: the direction level is set, and in STEP_DIR a change of it comes 20 µs before
the tick (R128, notes/assumptions/31.md). -/
def AxisRec.aim (positive : Bool) (r : AxisRec) : AxisRec :=
  { r with tick := { wait := if r.style = .stepDir ∧ r.dirHigh ≠ positive then Config.directionTime else 0 }
           dirHigh := positive }

/-- The axis takes up a drive: a homed axis becomes MOVING, an UNHOMED axis stays UNHOMED (R127), as does one whose last
search was still ending its tick, which the drive replaces (notes/assumptions/56.md); the direction line is set (R128). -/
def AxisRec.take (d : Drive) (positive : Bool) (r : AxisRec) : AxisRec :=
  { r.aim positive with
    state := if r.state = .idle then .moving else if r.state = .homing then .unhomed else r.state, drive := d }

/-- The axis of the service operation in flight. -/
def serviceAxis (s : State) : Option Axis :=
  match s.mot.service with
  | some (.jog a _ _) => some a
  | some (.loop a _ _ _ _ _ _ _) => some (tableAxis a)
  | _ => none

/-- An INTERNAL loop test runs on the axis: its feedback count is fed from the pulses (R132, R194). -/
def internalLoop (a : Axis) (s : State) : Bool :=
  match s.mot.service with
  | some (.loop b true _ _ _ _ _ _) => tableAxis b == a
  | _ => false

/-! ### Issuing pulses (R126, R128) -/

/-- A position moved by a signed number of pulses: ROT wraps, the others hold at the ends of their range (R126). -/
def movePosition (a : Axis) (pos n : Int) : Int :=
  match a with
  | .rot => (pos + n) % Config.rotTurn
  | _ => clampInt Config.positionMin Config.positionMax (pos + n)

/-- How many of k pulses a soft limit lets through: a homed X, Y or SPAN axis is not taken outside its limits (R128). -/
def pulsesAllowed (a : Axis) (positive : Bool) (k : Nat) (r : AxisRec) : Nat :=
  if r.homed then
    match softLimit a with
    | some top => if positive then min k (top - r.commanded).toNat else min k r.commanded.toNat
    | none => k
  else k

/-- The direction of a homing search (R125). -/
def searchPositive (a : Axis) : Bool := a == .rot

/-- The pulse count of the tick in progress (R128). -/
def Drive.count : Drive → Nat
  | .idle => 0
  | .profile _ ticks => ticks.headD 0
  | .jog _ rate _ => rate
  | .search _ rate _ _ _ => rate

/-- The direction of the pulses of the tick in progress; a search backs off against its search direction (R137). -/
def Drive.positive (a : Axis) : Drive → Bool
  | .idle => false
  | .profile p _ => p
  | .jog p _ _ => p
  | .search back _ _ _ _ => searchPositive a != back

/-- Pulses issued in a search or its back-off count toward the search limit (R137). -/
def Drive.issued (n : Nat) : Drive → Drive
  | .search back rate issued turning ending => .search back rate (issued + n) turning ending
  | d => d

/-- A number of pulses, with the sign of their direction. -/
def signedPulses (positive : Bool) (n : Nat) : Int := if positive then Int.ofNat n else -Int.ofNat n

/-- Pulses of the tick in progress are given to an axis: the commanded position moves by those a soft limit lets through, and
in an INTERNAL loop test the feedback count too (R126, R128, R194). -/
def issuePulses (a : Axis) (n : Nat) (s : State) : State :=
  let r := s.mot.axis a
  let p := r.drive.positive a
  let m := pulsesAllowed a p n r
  setAxisRec a
    { r with commanded := movePosition a r.commanded (signedPulses p m)
             feedback := if internalLoop a s then movePosition .x r.feedback (signedPulses p m) else r.feedback
             drive := r.drive.issued n
             tick := { r.tick with given := r.tick.given + n, withheld := r.tick.withheld || decide (m < n) } } s

/-! ### Generator C and starting searches (R129, R137) -/

/-- An axis that is HOMING and waits for its search: no service motion holds its generator, which the search waits for
(notes/assumptions/61.md). -/
def waitsForSearch (a : Axis) (s : State) : Bool :=
  (s.mot.axis a).state == .homing && (s.mot.axis a).drive == .idle && serviceAxis s != some a

/-- A search starts (R137): it adopts the pending rates and runs at Rs; an axis that stands on its switch backs off first. -/
def startSearch (a : Axis) (s : State) : State :=
  let r := (s.mot.axis a).adoptRates
  let back := r.homeInput.accepted
  setAxisRec a { r.aim (searchPositive a != back) with drive := .search back r.rates.rs 0 false false } s

/-- X and Y search as soon as they are HOMING; SPAN when generator C is free; ROT when SPAN's search has ended (R137). -/
def startSearches (s : State) : State :=
  if s.msv.home = some false then
    let s := if waitsForSearch .x s then startSearch .x s else s
    let s := if waitsForSearch .y s then startSearch .y s else s
    if s.mot.cAxis.isNone && s.mot.cGap.isNone then
      if waitsForSearch .span s then startSearch .span { s with mot := { s.mot with cAxis := some .span } }
      else if waitsForSearch .rot s && s.mot.span.state != .homing && !s.mot.span.homePending then
        startSearch .rot { s with mot := { s.mot with cAxis := some .rot } }
      else s
    else s
  else s

/-- A search on generator C is over: after SPAN's, C is assigned to none for the switch gap (R129). -/
def searchOver (a : Axis) (s : State) : State :=
  match a with
  | .span => { s with mot := { s.mot with cAxis := none, cGap := some 0 } }
  | .rot => { s with mot := { s.mot with cAxis := none } }
  | _ => s

/-! ### The shaft phase and the end of HOME (R19, R20) -/

/-- HOME ends successfully: STOPPED, and HOME_DONE with result DONE after the STATE report (R19). -/
def homeSuccess (s : State) : State :=
  enqueueAfter (.homeDone .done none) (enterState .stopped { s with msv := { s.msv with home := none } })

/-- The axes part of HOME is done: all four are homed and none waits to be homed. -/
def axesDone (s : State) : Bool := allHomed s && allAxes.all fun a => !(s.mot.axis a).homePending

/-- The shaft phase of HOME (R19): with the axes homed and the shaft at rest, a sync revolution when the angle is
unsynchronized or the shaft off home, otherwise the end of HOME. -/
def shaftPhase (s : State) : State :=
  if s.msv.state = .homing ∧ s.msv.home = some false ∧ axesDone s ∧ s.msv.single = none ∧ s.msv.atRest then
    if !s.stu.synced || s.msv.offHome then
      raiseTrip { s with msv := { s.msv with single := some { kind := .sync, travel := 0, dropped := false } } }
    else homeSuccess s
  else s

/-- After a STOP in HOMING, with every axis at its end and the shaft at rest, the state becomes UNHOMED and HOME_DONE is
queued with result ABORTED (R20, R139); the brake is applied, which a sync revolution stopped before its first count had
released (R4, notes/assumptions/42.md). The switch gap of generator C is no activity (notes/assumptions/49.md). -/
def activitiesOver (s : State) : State :=
  if s.msv.home = some true ∧ s.msv.atRest ∧ !s.msv.trip ∧ !motionInFlight s ∧
      (allAxes.all fun a => (s.mot.axis a).state != .homing) then
    enqueueAfter (.homeDone .aborted none)
      (enterState .unhomed { s with msv := { s.msv with home := none, single := none, brake := true } })
  else s

/-- What a change of an axis or of the shaft can bring about in a HOME in flight. -/
def homeProgress (s : State) : State := activitiesOver (shaftPhase s)

/-! ### Starting a plan (R151) -/

/-- An axis has a leg in a plan. -/
def Plan.moves (p : Plan) (a : Axis) : Bool := p.legs.any fun l => l.axis == a

/-- The axes of a plan can be taken up: each is IDLE, and generator C is free if it is needed (R133, R151). -/
def axesFree (p : Plan) (s : State) : Bool :=
  p.legs.all (fun l => (s.mot.axis l.axis).state == .idle) &&
    (!(p.moves .rot || p.moves .span) || (s.mot.cAxis.isNone && s.mot.cGap.isNone))

/-- The start of a planned move: its axes become MOVING, and generator C is assigned to ROT first (R129, R151). The
direction level of each axis is set here, that of SPAN also while C still serves ROT (notes/assumptions/31.md). -/
def startPlan (p : Plan) (s : State) : State :=
  let t := p.legs.foldl
    (fun t l => setAxisRec l.axis ((t.mot.axis l.axis).take (.profile l.positive l.ticks) l.positive) t) s
  let c := if p.moves .rot then some Axis.rot else if p.moves .span then some Axis.span else t.mot.cAxis
  { t with mot := { t.mot with running := some p, held := none, cAxis := c } }

/-- A HELD plan starts when its OPEN is met and no motion is in flight (R151). -/
def startHeld (s : State) : State :=
  match s.mot.held with
  | some p => if p.openMet && !motionInFlight s && axesFree p s then startPlan p s else s
  | none => s

/-! ### Settle end (R133, R134, R152, R190, R194) -/

/-- The following error of an axis that is homed exceeds its tolerance (R134). -/
def followingBad (r : AxisRec) : Bool := r.homed && decide (r.following < (r.feedback - r.commanded).natAbs)

/-- The detail value of FOLLOWING, when the following check fails (R134). -/
def followingDetail (s : State) : Option Int :=
  match followingBad s.mot.x, followingBad s.mot.y with
  | false, false => none
  | true, false => some 0
  | false, true => some 1
  | true, true => some 2

/-- An axis whose motion has settled: IDLE, or HOMING when home was pending (R127, R137). -/
def AxisRec.settleOver (r : AxisRec) : AxisRec :=
  if r.state = .settling then
    if r.homePending then { r with state := .homing, homePending := false } else { r with state := .idle }
  else r

/-- After a settle end: a HELD plan starts; with none, TABLE leaves the dwell reason set (R152); waiting searches start and
a HOME in flight goes on. -/
def afterSettle (s : State) : State :=
  let t := startHeld s
  let t := if t.mot.held.isNone && t.mot.running.isNone then setDwell (fun d => { d with table := false }) t else t
  homeProgress (startSearches t)

/-- The settle end of the planned move in flight (R152). -/
def plannedSettleEnd (p : Plan) (s : State) : State :=
  let s := { s with mot := { s.mot with settle := none } }
  match followingDetail s with
  | some d => raiseFault .following .h p.item none d s
  | none =>
    let t := p.legs.foldl (fun t l => setAxisRec l.axis (t.mot.axis l.axis).settleOver t) s
    afterSettle { t with mot := { t.mot with running := none } }

/-- One step of the shift sequence of the loop test (R193). -/
def shiftNext (n : Nat) : Nat := (2 * n) % 32768 + (n / 16384 + n / 8192) % 2

/-- The distance of a loop-test move: the low ten bits of the number, plus 1 (R193). -/
def loopDistance (n : Nat) : Nat := n % 1024 + 1

/-- The next move of a loop test: the first is positive and the direction alternates (R193); INTERNAL leaves the direction
line as it is (R194). -/
def loopMove (a : TableAxis) (intern : Bool) (number moves bad : Nat) (c f : Int) (s : State) : State :=
  let n := shiftNext number
  let positive := moves % 2 == 0
  let r := s.mot.axis (tableAxis a)
  let t := r.take (.profile positive (tickProfile r.rates (loopDistance n))) positive
  setAxisRec (tableAxis a) (if intern then { t with tick := {}, dirHigh := r.dirHigh } else t)
    { s with mot := { s.mot with service := some (.loop a intern n moves bad c f .none), serviceSettle := none } }

/-- The comparison of a loop test finds a mismatch: any difference in INTERNAL, one above the following tolerance in
EXTERNAL (R194). -/
def loopMismatch (intern : Bool) (r : AxisRec) : Bool :=
  if intern then decide (r.feedback ≠ r.commanded) else decide (r.following < (r.feedback - r.commanded).natAbs)

/-- The end of a service operation, with what its settle end brings about. -/
def serviceOver (op : ServiceOp) (cause : EndCause) (s : State) : State :=
  afterSettle (finishService op cause.result.1 cause.result.2 s)

/-- The settle end of a service motion (R190, R194). -/
def serviceSettleEnd (s : State) : State :=
  let s := { s with mot := { s.mot with serviceSettle := none } }
  match s.mot.service with
  | some (.jog a counted cause) =>
    match followingDetail s with
    | some d => raiseFault .following .h none none d s
    | none => serviceOver (.jog a counted cause) cause (setAxisRec a (s.mot.axis a).settleOver s)
  | some (.loop a intern n moves bad c f cause) =>
    let r := s.mot.axis (tableAxis a)
    let bad := if loopMismatch intern r then bad + 1 else bad
    if cause = .none ∧ moves + 1 < 16 then
      loopMove a intern n (moves + 1) bad c f
        (setAxisRec (tableAxis a) { r with state := if r.state = .settling then .idle else r.state } s)
    else
      serviceOver (.loop a intern n (moves + 1) bad c f cause) cause
        (setAxisRec (tableAxis a) r.settleOver s)
  | _ => s

/-! ### The end of an axis's last tick (R129, R133) -/

/-- The settle timer of the planned move starts when the last tick of its last axis has ended; a settle time of 0 ends the
settle at once (R133). -/
def planTicksOver (p : Plan) (s : State) : State :=
  if p.legs.all fun l => (s.mot.axis l.axis).drive == .idle then
    if s.store.settleTime = 0 then plannedSettleEnd p s
    else { s with mot := { s.mot with settle := some { time := s.store.settleTime, elapsed := 0 } } }
  else s

/-- Generator C after a last tick: after ROT's, the switch gap when SPAN still has ticks to run (R129). -/
def releaseC (a : Axis) (s : State) : State :=
  match a with
  | .rot =>
    match s.mot.span.state, s.mot.span.drive with
    | .moving, .profile _ _ => { s with mot := { s.mot with cAxis := none, cGap := some 0 } }
    | _, _ => { s with mot := { s.mot with cAxis := none } }
  | .span => { s with mot := { s.mot with cAxis := none } }
  | _ => s

/-- An axis's last tick ends: the axis becomes SETTLING, a search that waited for generator C starts (R137), and after the last
axis the settle timer starts (R133). -/
def lastTickEnd (a : Axis) (s : State) : State :=
  let r := s.mot.axis a
  let t := startSearches (releaseC a
    (setAxisRec a { r.still with state := if r.state = .moving then .settling else r.state } s))
  if serviceAxis t = some a then
    if t.store.settleTime = 0 then serviceSettleEnd t
    else { t with mot := { t.mot with serviceSettle := some { time := t.store.settleTime, elapsed := 0 } } }
  else
    match t.mot.running with
    | some p => planTicksOver p t
    | none => t

/-! ### Ending a search (R138, R139) -/

/-- A search ends without a home edge: the axis becomes UNHOMED (R139), or is to be homed again where a HOME came while
it was ending (notes/assumptions/14.md). -/
def searchEnds (a : Axis) (s : State) : State :=
  let r := s.mot.axis a
  searchOver a
    (setAxisRec a { r.still with state := if r.homePending then .homing else .unhomed, homePending := false } s)

/-- A search reaches its limit: the axis becomes UNHOMED and HOME_FAIL is raised (R139). -/
def searchFails (a : Axis) (detail : Int) (s : State) : State := raiseFault .homeFail .s none none detail (searchEnds a s)

/-- The number of an axis (R125). -/
def Axis.number : Axis → Int
  | .x => 0
  | .y => 1
  | .span => 2
  | .rot => 3

/-! ### One tick of a generator (R128) -/

/-- A search has issued the pulses of its search limit (R139). -/
def limitReached (r : AxisRec) : Bool :=
  match r.drive with
  | .search _ _ issued _ _ => decide (r.searchLimit ≤ issued)
  | _ => false

/-- The pulses that the tick in progress has still to issue; a search issues none past its search limit (R139). -/
def pulsesLeft (r : AxisRec) : Nat :=
  match r.drive with
  | .search _ rate issued _ _ => min (rate - r.tick.given) (r.searchLimit - issued)
  | d => d.count - r.tick.given

/-- The axis goes on to its next tick, in a direction (R128). -/
def nextTick (a : Axis) (positive : Bool) (d : Drive) (s : State) : State :=
  setAxisRec a { (s.mot.axis a).aim positive with drive := d } s

/-- The tick in progress of an axis ends, its pulses issued: the next tick begins, or what ends with the tick does. A withheld
pulse makes it the axis's last (R128); a jog or a search that is ending ends (R139, R190); an axis that has backed off turns
round (R137). -/
def tickEnd (a : Axis) (s : State) : State :=
  let r := s.mot.axis a
  match r.drive with
  | .idle => s
  | .profile p ticks =>
    if r.tick.withheld || ticks.tail.isEmpty then lastTickEnd a s
    else setAxisRec a { r with drive := .profile p ticks.tail, tick := {} } s
  | .jog _ _ ending =>
    if r.tick.withheld || ending then lastTickEnd a s else setAxisRec a { r with tick := {} } s
  | .search back rate issued turning ending =>
    if ending then homeProgress (startSearches (searchEnds a s))
    else
      let back := back && !turning
      nextTick a (searchPositive a != back) (.search back rate issued false false) s

/-- Pulses of the tick in progress are issued, and what follows them; a search that reaches its limit ends at that pulse
(R139), also one that a STOP or a fault is ending (notes/assumptions/51.md). -/
def issueThen (a : Axis) (n : Nat) (next : State → State) (s : State) : State :=
  let t := issuePulses a n s
  if limitReached (t.mot.axis a) then searchFails a (Axis.number a) t else next t

/-- The rest of the tick in progress on an axis: the pulses it has still to issue, and its end. -/
def tickAxis (a : Axis) (s : State) : State :=
  if (s.mot.axis a).drive = .idle then s else issueThen a (pulsesLeft (s.mot.axis a)) (tickEnd a) s

/-! ### A microsecond of a generator (R128) -/

/-- The next pulse of the tick in progress begins now: pulse j of k begins ⌊1,000/k⌋ × j µs after the tick. -/
def pulseDue (r : AxisRec) : Bool :=
  decide (r.tick.given < r.drive.count ∧ r.tick.time = Config.tickTime / r.drive.count * r.tick.given)

/-- A pulse begins at the outputs of an axis, high for 5 µs; an INTERNAL loop test holds them at rest (R194), and a withheld
pulse does not appear. -/
def beginPulse (a : Axis) (s : State) : State :=
  let r := s.mot.axis a
  let p := r.drive.positive a
  if internalLoop a s || decide (pulsesAllowed a p 1 r = 0) then s
  else setAxisRec a { r with pulse := { high := Config.pulseWidth, positive := p } } s

/-- The tick in progress has lasted a microsecond more. -/
def tickTimed (a : Axis) (s : State) : State :=
  let r := s.mot.axis a
  if Config.tickTime ≤ r.tick.time + 1 then eventRun (tickEnd a) s
  else setAxisRec a { r with tick := { r.tick with time := r.tick.time + 1 } } s

/-- A pulse that is due begins; it ends a search whose limit it is, as an event (R139), also a search that a STOP or a fault is
ending (notes/assumptions/51.md). -/
def pulseTick (a : Axis) (s : State) : State :=
  if pulseDue (s.mot.axis a) then
    let t := issuePulses a 1 (beginPulse a s)
    if limitReached (t.mot.axis a) then eventRun (searchFails a (Axis.number a)) t else t
  else s

/-- The axis a generator serves (R129). -/
def servedBy (g : Generator) (s : State) : Option Axis :=
  match g with
  | .a => some .x
  | .b => some .y
  | .c => s.mot.cAxis

/-- A generator serves the axis now. -/
def serves (a : Axis) (s : State) : Bool :=
  match a with
  | .x => true
  | .y => true
  | a => s.mot.cAxis == some a

/-- A microsecond of the generator of an axis that has a motion to run: the direction level's set-up time passes, then, while
the generator serves the axis, its tick, both also where the motion is ending (notes/assumptions/31.md). -/
def axisMicro (a : Axis) (s : State) : State :=
  let r := s.mot.axis a
  if r.drive = .idle then s
  else if 0 < r.tick.wait then setAxisRec a { r with tick := { r.tick with wait := r.tick.wait - 1 } } s
  else if serves a s then
    let t := pulseTick a s
    if (t.mot.axis a).drive = .idle then t else tickTimed a t
  else s

/-- A pulse that is high lasts a microsecond less. -/
def AxisRec.pulseFades (r : AxisRec) : AxisRec := { r with pulse := { r.pulse with high := r.pulse.high - 1 } }

/-- The switch gap of generator C ends: C passes to SPAN of the planned move, or to the search that waits (R129). -/
def gapEnd (s : State) : State :=
  if s.mot.cGap.isSome then
    let t := { s with mot := { s.mot with cGap := none } }
    match t.mot.span.state, t.mot.span.drive with
    | .moving, .profile _ _ => { t with mot := { t.mot with cAxis := some .span } }
    | _, _ => startSearches t
  else s

/-- The switch gap has lasted a microsecond more. -/
def gapMicro (s : State) : State :=
  match s.mot.cGap with
  | none => s
  | some n =>
    if Config.switchGap ≤ n + 1 then eventRun gapEnd s else { s with mot := { s.mot with cGap := some (n + 1) } }

/-! ### Plans (R145, R148 to R150, R154) -/

/-- The pulses that the motion of an axis has still to issue: those of its profile, or of the last tick of a jog. -/
def AxisRec.left (r : AxisRec) : Nat :=
  match r.drive with
  | .profile _ ticks => ticks.sum - r.tick.given
  | .jog _ rate _ => rate - r.tick.given
  | _ => 0

/-- The position at which the motion of an axis ends: an INTERNAL loop test loads its saved position back (R194), and any other
motion issues the pulses it has left, but for those a soft limit withholds (R128). -/
def motionEnd (a : Axis) (s : State) : Int :=
  let r := s.mot.axis a
  let p := r.drive.positive a
  let own := movePosition a r.commanded (signedPulses p (pulsesAllowed a p r.left r))
  match s.mot.service with
  | some (.loop b true _ _ _ commanded _ _) => if tableAxis b = a then commanded else own
  | _ => own

/-- The target of an axis in a plan that moves it. -/
def Plan.targetOf (p : Plan) (a : Axis) : Option Int := (p.legs.find? fun l => l.axis == a).map (·.target)

/-- The start position of an axis: where its last motion ends (R145), also a service motion that a run finds in flight
(notes/assumptions/22.md). -/
def startPosition (a : Axis) (s : State) : Int :=
  let own := motionEnd a s
  match s.mot.running, s.mot.held with
  | some p, some h => (h.targetOf a).getD ((p.targetOf a).getD own)
  | some p, none => (p.targetOf a).getD own
  | _, _ => own

/-- The distance and the direction of an axis from a start to a target (R145). -/
def distanceOf (a : Axis) (start target : Int) : Nat × Bool :=
  match a with
  | .rot =>
    let d := (target - start) % Config.rotTurn
    if d ≤ 3200 then (d.toNat, true) else ((Config.rotTurn - d).toNat, false)
  | _ => ((target - start).natAbs, decide (start < target))

/-- The leg of an axis in the plan for an item, none for a distance of 0; its rates are the pending ones (R131, R146). -/
def legOf (i : Item) (s : State) (a : Axis) : Option Leg :=
  let target := targetOf i a s
  let (n, positive) := distanceOf a (startPosition a s) target
  let rates := (s.mot.axis a).adoptRates.rates
  if n = 0 then none
  else some { axis := a, target := target, distance := n, positive := positive, rates := rates
              ticks := tickProfile rates n }

/-- The legs of the plan for an item. -/
def legsOf (i : Item) (s : State) : List Leg := allAxes.filterMap (legOf i s)

/-- The planned time of an axis (R146). -/
def planTime (legs : List Leg) (a : Axis) : Nat :=
  match legs.find? fun l => l.axis == a with
  | some l => l.ticks.length
  | none => 0

/-- The time of generator C, with its switch gap (R148). -/
def timeC (legs : List Leg) : Nat :=
  let r := planTime legs .rot
  let p := planTime legs .span
  if r ≠ 0 ∧ p ≠ 0 then r + p + 1 else r + p

/-- The time a move needs (R148). -/
def timeNeeded (legs : List Leg) (s : State) : Nat :=
  if legs.isEmpty then 0
  else max (max (planTime legs .x) (planTime legs .y)) (timeC legs) + s.store.settleTime + s.store.fitMargin

/-- The period of the fit check: the revolution period when VALID, the nominal period when STALE (R149). -/
def fitPeriod (s : State) : Nat := if s.stu.periodValid then s.stu.period else s.store.landmarks.nominal

/-- The clear window in milliseconds (R149). -/
def windowMs (s : State) : Nat := clearWindow s.store.landmarks * fitPeriod s / 409600

/-- The rates of the axes a plan moves are adopted (R131). -/
def adoptLegRates (legs : List Leg) (s : State) : State :=
  legs.foldl (fun t l => setAxisRec l.axis (t.mot.axis l.axis).adoptRates t) s

/-- Making a HELD plan for an item, with its verdict; NO_MOVE leaves the record unchanged (R150). -/
def holdPlan (i : Item) (openMet fitChecked : Bool) (s : State) : State × Verdict :=
  let legs := legsOf i s
  if legs.isEmpty then (s, .noMove)
  else
    let verdict : Verdict :=
      if !motionInFlight s && fitChecked && decide (timeNeeded legs s ≤ windowMs s) then .fit else .noFit
    let t := adoptLegRates legs s
    let t := { t with mot := { t.mot with held := some { item := some i, legs := legs, verdict := verdict
                                                         openMet := openMet } } }
    (if verdict = .noFit then setDwell (fun d => { d with table := true }) t else t, verdict)

/-- The item planned for at COMMIT: in DIRECT that of a PASSED slot at Q, in TAPE_IN that of the delivery mark (R150). -/
def commitItem (s : State) : Option Item :=
  match runMode s with
  | some .direct =>
    match (slotAt s.sqc.q s).content with
    | .item i .passed => some i
    | _ => none
  | some .tapeIn => s.tmu.mark
  | _ => none

/-- Replacing the slot at a chain position. -/
def setSlot (p : Nat) (c : Slot) (s : State) : State := { s with sqc := { s.sqc with chain := s.sqc.chain.set (p - 1) c } }

/-- The plan of a COMMIT and its verdict (R150). An item found unreachable is abandoned and its slot becomes UNKNOWN; a panel end
that this brings about comes before the decision of the same COMMIT (notes/assumptions/41.md). -/
def commitPlan (s : State) : State × Verdict :=
  match commitItem s with
  | none => (s, .noMove)
  | some i =>
    if reach i s ≠ 0 then
      let t := if runMode s = some .direct then
        setSlot s.sqc.q { slotAt s.sqc.q s with content := .unknown, stray := false } s else s
      (panelTest (abandonRange i (some s.sqc.q) t), .noMove)
    else holdPlan i false true s

/-- MOT's part of a RUN (R154): a HELD plan is kept; otherwise the table is checked against the item in the head. -/
def runPlan (s : State) : State :=
  let addTable := setDwell fun d => { d with table := true }
  if s.mot.held.isSome then addTable s
  else
    match headItem s with
    | some i =>
      if reach i s ≠ 0 then
        let t := abandonRange i none s
        let t := setHead { t.wmu.head with content := .unknown, record := none } t
        let t := panelTest t
        if inRun t && motionInFlight t then addTable t else t
      else
        let t := startHeld (holdPlan i true false s).1
        if motionInFlight t then addTable t else t
    | none => if motionInFlight s then addTable s else s

/-! ### The CLOSE check (R153) -/

/-- The milliseconds before a motion of the given axes and settle timer has settled, at a CLOSE. -/
def settleLeft (axes : Axis → Bool) (settle : Option Settle) (s : State) : Nat :=
  match settle with
  | some t => t.time - t.elapsed
  | none =>
    let ticks (a : Axis) : Nat :=
      if axes a then
        match (s.mot.axis a).drive with
        | .profile _ l => l.length
        | .jog .. => 1
        | _ => 0
      else 0
    let c := ticks .rot + ticks .span + (if (ticks .rot ≠ 0 ∧ ticks .span ≠ 0) ∨ s.mot.cGap.isSome then 1 else 0)
    max (max (ticks .x) (ticks .y)) c + s.store.settleTime

/-- The detail value of LATE_TABLE: the millisecond ticks to run before the settle end (R153). -/
def lateTicks (s : State) : Nat :=
  let planned := match s.mot.running with
    | some p => settleLeft p.moves s.mot.settle s
    | none => 0
  let service := match serviceAxis s with
    | some a => settleLeft (fun b => b == a) s.mot.serviceSettle s
    | none => 0
  max planned service

/-- The late-table rule (R64, R153): LATE_TABLE, the item in the head returned without a try, the eject mark set. -/
def lateTable (s : State) : State :=
  let t := raiseD .lateTable (headItem s) none (Int.ofNat (lateTicks s)) s
  match headItem s with
  | some i => setHead { t.wmu.head with content := .empty, good := false, ejectMark := true } (placeReturned i t)
  | none => t

/-- CLOSE (R153): the table is reported settled, or it is late. -/
def atClose (s : State) : State :=
  if inRun s then
    if anyMoving s then lateTable s else { s with mot := { s.mot with settled := true } }
  else s

end Sys2Proof.Machine
end

