-- ==== Sys2Proof/Machine/Windows.lean ====
section
/-! DEFINITION. The Window Monitor: check windows, burst histories, jams (R50 to R56, R105, R122), the head load record and
the outcome at OPEN (R57 to R65). -/

namespace Sys2Proof.Machine

/-- The twelve windows in their order. -/
def allWindows : List (Fin 12) := [0, 1, 2, 3, 4, 5, 6, 7, 8, 9, 10, 11]

/-- Replacing the record of a window. -/
def setWindowRec (n : Fin 12) (w : Window) (s : State) : State :=
  { s with wmu := { s.wmu with windows := s.wmu.windows.set n.val w } }

/-- Windows are worked only in RUNNING and STOPPING with the angle synchronized (R53). -/
def windowsWorked (s : State) : Bool := inRun s && s.stu.synced

/-- The role of a window applies at an evaluation (R50). -/
def windowApplies (w : Window) (s : State) : Bool :=
  let h := s.wmu.head
  match w.active.role with
  | .unused => false
  | .part => h.record.isSome && !h.partMissed
  | .lead1 => (headItem s).isSome && h.driveDone
  | .lead2 => (headItem s).isSome && h.driveDone
  | .driver => h.driveDone
  | .chain => w.mark
  | .tape => w.mark
  | .guard => true
  | .watch => true

/-- The fault a window's miss or trip raises (R50). -/
def windowFault : WindowRole → FaultKind
  | .part => .headEmpty
  | .lead1 => .leadMiss
  | .lead2 => .leadMiss
  | .driver => .headJam
  | .chain => .chainJam
  | .tape => .tapeJam
  | .guard => .guardTrip
  | .watch => .watchMiss
  | .unused => .watchMiss

/-- The item a window's fault names: the item of record for PART, LEAD1, LEAD2 and DRIVER (R54). -/
def windowItem (w : Window) (s : State) : Option Item :=
  match w.active.role with
  | .part => s.wmu.head.record
  | .lead1 => s.wmu.head.record
  | .lead2 => s.wmu.head.record
  | .driver => s.wmu.head.record
  | _ => none

/-- The class of a window's fault; an UNUSED window raises none. -/
def windowClass (w : Window) : FaultClass := w.active.cls.getD .w

/-! ### Burst history (R56) -/

/-- A result enters a history of at most 16. -/
def historyAdd (h : List WindowResult) (r : WindowResult) : List WindowResult := (h ++ [r]).drop (h.length + 1 - 16)

/-- A MISS brings the number of MISS results to K (R56). -/
def bursts (w : Window) : Bool :=
  decide (1 ≤ w.active.burst) && (historyAdd w.history .miss).count .miss == w.active.burst

/-- A result is entered in a window's history. -/
def enterResult (n : Fin 12) (r : WindowResult) (s : State) : State :=
  let w := s.wmu.windows[n]
  setWindowRec n { w with history := historyAdd w.history r } s

/-- BURST is raised after the window's own fault, and the history is emptied (R56). -/
def raiseBurst (n : Fin 12) (s : State) : State :=
  let t := raiseFault .burst .s none none (Int.ofNat n.val) s
  setWindowRec n { t.wmu.windows[n] with history := [] } t

/-! ### Jams -/

/-- The items that the slots of the chain hold, in position order. -/
def chainItems (s : State) : List Item := s.sqc.chain.filterMap Slot.holds

/-- Every slot becomes UNKNOWN with its flags clear and every item a slot held returns to PENDING (R86, R105, R191). -/
def forgetChain (q : Nat) (s : State) : State :=
  let t := pendAll (chainItems s) s
  { t with sqc := { t.sqc with chain := List.replicate q .unknown } }

/-- A miss of the CHAIN window reaches the Sequencer Controller (R105). -/
def chainJam (s : State) : State :=
  let t := forgetChain s.sqc.chain.length s
  { t with sqc := { t.sqc with frame := none } }

/-- A miss of the TAPE window reaches the Tape Map Unit (R122), which acts by the mode of the run that the class action
has ended. In DIRECT it does nothing (notes/assumptions/48.md). In TAPE_OUT the last-taped item is returned also where a setup adopted
since gives it no record (notes/assumptions/60.md). -/
def tapeJam (mode : Option RunMode) (s : State) : State :=
  match mode with
  | some .tapeIn =>
    let t := { s with tmu := { s.tmu with jammed := true } }
    reportReel (reelState s) (tapeReport .jam (some (t.tmu.position - 1)) t)
  | some .tapeOut =>
    match s.tmu.lastTaped with
    | some (i, p) =>
      let t := { s with tmu := { s.tmu with map := Table.write .blank s.tmu.map p .blank } }
      tapeReport .jam (some p) (placeReturned i t)
    | none => tapeReport .jam none s
  | _ => s

/-! ### Misses and evaluation -/

/-- The head load part of a PART miss (R59, R60). -/
def partMissHead (s : State) : State :=
  let h := s.wmu.head
  match h.content with
  | .item i =>
    if h.driveDone then setHead { h with partMissed := true } s
    else
      setHead { h with content := .empty, good := false, partMissed := true, ejectMark := h.ejectMark || h.gripped }
        (returnTried i s)
  | _ => setHead { h with partMissed := true } s

/-- A PART miss: the head load, HEAD_EMPTY, then the fault of an item whose tries are out (R59, R60). -/
def partMiss (n : Fin 12) (w : Window) (s : State) : State :=
  let out := match s.wmu.head.content with
    | .item i => if !s.wmu.head.driveDone && triesOut i s then some i else none
    | _ => none
  let t := raiseFault .headEmpty (windowClass w) s.wmu.head.record none (Int.ofNat n.val) (partMissHead s)
  match out with
  | some i => raiseAbandoned i t
  | none => t

/-- The result of a lead window is set (R61). -/
def setLead (role : WindowRole) (r : LeadResult) (s : State) : State :=
  match role with
  | .lead1 => setHead { s.wmu.head with lead1 := r } s
  | .lead2 => setHead { s.wmu.head with lead2 := r } s
  | _ => s

/-- What a MISS of a window does beside its history: its fault, and the work of its role (R54, R55, R59, R61). -/
def missEffect (n : Fin 12) (w : Window) (s : State) : State :=
  let raised (t : State) : State :=
    raiseFault (windowFault w.active.role) (windowClass w) (windowItem w t) none (Int.ofNat n.val) t
  match w.active.role with
  | .part => partMiss n w s
  | .lead1 => raised (setLead .lead1 .missed s)
  | .lead2 => raised (setLead .lead2 .missed s)
  | .chain => chainJam (raised s)
  | .tape => tapeJam (runMode s) (raised s)
  | _ => raised s

/-- A MISS: the history, the window's own fault, then BURST (R56), then the test for panel end (R82), which at OPEN so comes before
the CYCLE report (notes/assumptions/25.md). -/
def missWindow (n : Fin 12) (w : Window) (s : State) : State :=
  let t := missEffect n w (enterResult n .miss s)
  panelTest (if bursts w then raiseBurst n t else t)

/-- A window closes and is evaluated (R54). A GUARD window that has tripped is not evaluated again. -/
def closeWindow (n : Fin 12) (s : State) : State :=
  let w := s.wmu.windows[n]
  let applies := windowApplies w s
  let last := match w.capture with
    | some a => if w.active.role = .guard then w.lastCapture else some (a, false)
    | none => w.lastCapture
  let t := setWindowRec n { w with isOpen := false, capture := none, mark := false, lastCapture := last } s
  match w.capture with
  | some a =>
    if w.active.role = .guard then t
    else
      let t := enterResult n .pass t
      if applies then setLead w.active.role (.captured a) t else t
  | none =>
    if w.active.role = .guard then enterResult n .pass t
    else if applies then missWindow n w t
    else t

/-- The edge setting of a window takes an accepted edge (R53). -/
def WindowEdge.takes : WindowEdge → Edge → Bool
  | .rise, e => e == .rise
  | .high, e => e == .rise
  | .fall, e => e == .fall
  | .low, e => e == .fall

/-- An open window captures the current angle; the capture of a GUARD window is its trip (R53, R54), and becomes its last capture
there (notes/assumptions/44.md). -/
def captureWindow (n : Fin 12) (s : State) : State :=
  let w := s.wmu.windows[n]
  let a := s.stu.angle
  if w.active.role = .guard then
    let t := setWindowRec n { w with capture := some a, lastCapture := some (a, false) } s
    let t := raiseFault .guardTrip (windowClass w) none none (Int.ofNat n.val) (enterResult n .miss t)
    if bursts w then raiseBurst n t else t
  else setWindowRec n { w with capture := some a } s

/-- A window opens with its capture absent; a HIGH or LOW window whose level is already met captures at once (R53). -/
def openWindow (n : Fin 12) (s : State) : State :=
  let w := s.wmu.windows[n]
  let t := setWindowRec n { w with isOpen := true, capture := none } s
  match w.active.input with
  | some i =>
    if (w.active.edge == .high && inputLevel i s) || (w.active.edge == .low && !inputLevel i s) then captureWindow n t
    else t
  | none => t

/-- The forward crossing of an angle reaches a window: it closes at hi and opens at lo (R53). -/
def crossWindow (a : Angle) (n : Fin 12) (s : State) : State :=
  let w := s.wmu.windows[n]
  if windowsWorked s && w.active.role != .unused then
    if w.isOpen && a == w.active.hi then closeWindow n s
    else if a == w.active.lo then openWindow n s
    else s
  else s

/-- The crossing reaches every window, in window order. -/
def crossWindows (a : Angle) (s : State) : State := allWindows.foldl (fun t n => crossWindow a n t) s

/-- An accepted edge reaches a window: the first of its kind in an opening captures (R53). -/
def edgeWindow (i : InputNo) (e : Edge) (n : Fin 12) (s : State) : State :=
  let w := s.wmu.windows[n]
  if windowsWorked s && w.isOpen && w.capture.isNone && w.active.input == some i && w.active.edge.takes e then
    captureWindow n s
  else s

/-- An accepted edge reaches the windows that name its input. -/
def edgeWindows (i : InputNo) (e : Edge) (s : State) : State := allWindows.foldl (fun t n => edgeWindow i e n t) s

/-- CHAIN's or FEED's command goes on: the since-close marks of the windows that check it (R51, R55). -/
def markWindows (role : WindowRole) (s : State) : State :=
  mapWindows (fun w => if w.active.role = role then { w with mark := true } else w) s

/-! ### The delivery at INDEX (R58) -/

/-- The head was not cleared in the revolution just ended: its content is UNKNOWN or SURPLUS. -/
def headUncleared (s : State) : Bool := s.wmu.head.content == .unknown || s.wmu.head.content == .surplus

/-- The head load is replaced by a delivery (R58). Over an uncleared head the content is UNKNOWN and a delivered item is
returned without a try; otherwise a delivered item is in state HEAD. A content still ITEM, which no OPEN has settled, leaves the
head first (notes/assumptions/55.md). -/
def deliver (c : HeadContent) (s : State) : State :=
  let s := itemLeaves s
  let item := match c with
    | .item i => some i
    | _ => none
  let content := if headUncleared s then .unknown else c
  let t := match item with
    | some i => if headUncleared s then placeReturned i s else setItemState i .head s
    | none => s
  setHead
    { HeadLoad.reset with content := content, record := item, ejectMark := s.wmu.head.ejectMark
                          good := !headUncleared s && item.isSome, returned := headUncleared s && item.isSome } t

/-! ### The outcome at OPEN (R62 to R65) -/

/-- A lead window is in use: an active window entry holds its role (R62). -/
def leadInUse (role : WindowRole) (s : State) : Bool := allWindows.any fun n => s.wmu.windows[n].active.role == role

/-- The circular distance of two angles (R61). -/
def skewOf (a b : Angle) : Nat := min (a - b).toNat (b - a).toNat

/-- The skew of the two lead captures, where both windows are in use and both captured. -/
def leadSkew (s : State) : Option Nat :=
  match s.wmu.head.lead1, s.wmu.head.lead2 with
  | .captured a, .captured b => if leadInUse .lead1 s && leadInUse .lead2 s then some (skewOf a b) else none
  | _, _ => none

/-- The skew that exceeds a nonzero limit (R61). -/
def skewFault (s : State) : Option Nat :=
  match leadSkew s with
  | some d => if s.wmu.skewLimit ≠ 0 ∧ s.wmu.skewLimit < d then some d else none
  | none => none

/-- A lead window in use has the given result. -/
def leadIs (role : WindowRole) (r : LeadResult) (s : State) : Bool :=
  leadInUse role s && (match role with
    | .lead1 => s.wmu.head.lead1 == r
    | .lead2 => s.wmu.head.lead2 == r
    | _ => false)

/-- The outcome of a driven item (R62). -/
def drivenOutcome (s : State) : CycleOutcome :=
  if s.wmu.head.partMissed || leadIs .lead1 .missed s || leadIs .lead2 .missed s || leadIs .lead1 .none s ||
      leadIs .lead2 .none s || (skewFault s).isSome then .suspect
  else if leadInUse .lead1 s || leadInUse .lead2 s then .inserted
  else .unverified

/-- The outcome of the head load (R62, R63). An item that its delivery returned over an uncleared head is RETURNED, as R58 says, with
EJECT done or not (notes/assumptions/59.md). -/
def headOutcome (s : State) : CycleOutcome :=
  let h := s.wmu.head
  match h.content with
  | .item _ => if h.driveDone then drivenOutcome s else .returned
  | .empty => if h.record.isSome then .returned else .blank
  | _ => if h.returned then .returned else if h.ejectDone then .cleared else .held

/-- The lead window in use whose result at OPEN is NONE, with its class (R62). -/
def leadNone (role : WindowRole) (s : State) : Option (Fin 12 × FaultClass) :=
  if leadIs role .none s then
    (allWindows.find? fun n => s.wmu.windows[n].active.role == role).map fun n => (n, windowClass s.wmu.windows[n])
  else none

/-- LEAD_MISS at OPEN for a lead window in use whose result is NONE, in that window's class (R62). -/
def raiseLeadNone (i : Item) (window : Option (Fin 12 × FaultClass)) (s : State) : State :=
  match window with
  | some (n, c) => raiseFault .leadMiss c (some i) none (Int.ofNat n.val) s
  | none => s

/-- LEAD_SKEW at OPEN (R61). -/
def raiseSkew (i : Item) (skew : Option Nat) (s : State) : State :=
  match skew with
  | some d => raiseW .leadSkew (some i) none (Int.ofNat d) s
  | none => s

/-- The head load's item and content at OPEN, and the faults raised there (R62, R63), after the content has changed and LEAD1's
before LEAD2's (notes/assumptions/43.md). Both lead windows are judged as they stand when the outcome is formed, before a class
action that adopts pending windows. -/
def settleHead (s : State) : State :=
  let h := s.wmu.head
  match h.content with
  | .item i =>
    if h.driveDone then
      let st : ItemState := if drivenOutcome s = .suspect then .suspect else .inserted
      let t := setHead { h with content := .empty } (setItemState i st s)
      raiseSkew i (skewFault s) (raiseLeadNone i (leadNone .lead2 s) (raiseLeadNone i (leadNone .lead1 s) t))
    else setHead { h with content := .unknown } (placeReturned i s)
  | .empty => s
  | _ => if h.ejectDone then setHead { h with content := .empty } s else s

/-- The captures not yet reported, in window order (R65). -/
def unreported (s : State) : List (Nat × Angle) :=
  allWindows.filterMap fun n =>
    match s.wmu.windows[n].lastCapture with
    | some (a, false) => some (n.val, a)
    | _ => none

/-- Every last capture is marked as reported (R65). -/
def markReported (s : State) : State :=
  mapWindows (fun w => { w with lastCapture := w.lastCapture.map fun c => (c.1, true) }) s

/-- The CYCLE report (R65). -/
def cycleReport (record : Option Item) (outcome : CycleOutcome) (s : State) : State :=
  markReported (enqueue (.cycle s.stu.cycle record outcome s.stu.period s.stu.periodValid (unreported s)) s)

/-- The PART, LEAD1, LEAD2 and DRIVER windows still open are evaluated at OPEN (R62). A PART miss that abandons the last unfinished
item ends the panel here, before the CYCLE report (notes/assumptions/25.md). -/
def closeHeadWindows (s : State) : State :=
  allWindows.foldl
    (fun t n =>
      let w := t.wmu.windows[n]
      if w.isOpen && (w.active.role == .part || w.active.role == .lead1 || w.active.role == .lead2 ||
          w.active.role == .driver) then closeWindow n t else t) s

/-- OPEN in the Window Monitor (R62 to R65), in RUNNING and STOPPING: the open head windows, the outcome, the CYCLE report,
the test for panel end. A head window that halts the machine leaves no outcome to report; a LEAD_MISS that halts it comes after the
outcome, whose CYCLE report is queued behind any report of the class action (notes/assumptions/25.md and 43.md). -/
def atOpenOutcome (s : State) : State :=
  if inRun s then
    let t := closeHeadWindows s
    if inRun t then panelTest (cycleReport t.wmu.head.record (headOutcome t) (settleHead t)) else t
  else s

end Sys2Proof.Machine
end

