-- ==== Sys2Proof/Machine/Tape.lean ====
section
/-! DEFINITION. The Tape Map Unit in a run: the slot that leaves Q in TAPE_OUT (R115, R116), the judgement at COMMIT and
the feed at INDEX in TAPE_IN (R118 to R121). -/

namespace Sys2Proof.Machine

/-- The tape map entry at a position; an entry at or beyond the map length reads as BLANK (R110). -/
def entryAt (n : Nat) (s : State) : TapeEntry :=
  if n < s.tmu.mapLength then Table.read .blank s.tmu.map n else .blank

/-- The eject mark of the head load record is set (R41). -/
def setEject (s : State) : State := setHead { s.wmu.head with ejectMark := true } s

/-- The slot leaving Q in TAPE_OUT (R115): the last-taped record is cleared first. -/
def tapeTake (c : Slot) (s : State) : State :=
  let s := { s with tmu := { s.tmu with lastTaped := none } }
  match c.content with
  | .item i .passed =>
    if s.tmu.mapLength < Config.tapeMax then
      let t := setItemState i .taped (appendEntry (.item i) s)
      { t with tmu := { t.tmu with lastTaped := some (i, s.tmu.mapLength) } }
    else setEject (placeReturned i (raiseD .tapeFull (some i) (some s.sqc.q) 4096 s))
  | .unknown => setEject s
  | _ => if c.stray then setEject s else s

/-- An ITEM entry names an item in state PENDING of the open panel (R118). -/
def entryPending (i : Item) (s : State) : Bool :=
  s.pgs.panel.isSome && hasItem i s && (itemRec i s).state == .pending

/-- The judgement of the next entry at COMMIT in a TAPE_IN run (R118). -/
def judgeDelivery (s : State) : State :=
  if inRun s && runMode s == some .tapeIn then
    let clear := { s with tmu := { s.tmu with mark := none } }
    match entryAt s.tmu.position s with
    | .item i =>
      if entryPending i s then
        if reach i s = 0 then { s with tmu := { s.tmu with mark := some i } }
        else panelTest (abandonRange i none clear)
      else clear
    | _ => clear
  else s

/-- A PANEL_END entry, or the end of the map, closes its panel's run of parts (R120): an open panel with PENDING items is
incomplete and the run ends. -/
def panelEndEntry (mapPosition : Nat) (s : State) : State :=
  let t := match s.pgs.panel with
    | some mode =>
      if countState .pending s ≠ 0 then endRun (panelReport mode .incomplete s) else s
    | none => s
  tapeReport .panelEnd (some mapPosition) t

/-- The feed of one entry (R119). -/
def feedEntry (s : State) : State :=
  let p := s.tmu.position
  let t := { s with tmu := { s.tmu with position := p + 1, mark := none } }
  match entryAt p s with
  | .item i => if s.tmu.mark == some i && entryPending i s then deliver (.item i) t else deliver .surplus t
  | .blank => deliver .empty t
  | .panelEnd => panelEndEntry p (deliver .empty t)

/-- An INDEX that finds the map ended (R119, R121). -/
def mapEnded (s : State) : State :=
  let first := !s.tmu.mapEnd
  let t := deliver .empty { s with tmu := { s.tmu with mark := none, mapEnd := true } }
  let t := if first && !tapeEnd s then raiseD .tapeCount none none 0 t else t
  let t := panelEndEntry s.tmu.mapLength t
  if first then tapeReport .mapEnd (some s.tmu.mapLength) t else t

/-- The feed at INDEX in a TAPE_IN run (R119). -/
def tapeFeed (s : State) : State := if s.tmu.position < s.tmu.mapLength then feedEntry s else mapEnded s

end Sys2Proof.Machine
end

