-- ==== Sys2Proof/Machine/Chain.lean ====
section
/-! DEFINITION. The Sequencer Controller in a run: indexing (R88, R89), the fire frame (R93, R94), verdicts and the
dispenser history (R96 to R98, R102). -/

namespace Sys2Proof.Machine

/-! ### Indexing -/

/-- The dispenser of an item and its entry. -/
def dispenserOfItem (i : Item) (s : State) : Dispenser := s.sqc.dispensers[(stepOf i s).dispenser]

/-- A slot moves up from a position (R89): past its dispenser unfired, past V unjudged, past R uncleared. -/
def passSlot (p : Nat) (c : Slot) (s : State) : State × Slot :=
  let (s, c) := match c.content with
    | .item i .assigned => if (dispenserOfItem i s).position = p then (placeReturned i s, { c with content := .empty }) else (s, c)
    | _ => (s, c)
  let (s, c) :=
    if p = s.sqc.v ∧ c.judged = false then
      ((match c.holds with
        | some i => setItemState i .pending s
        | none => s), { c with content := .unknown, stray := false })
    else (s, c)
  let removed := c.stray || (match c.content with
    | .item _ .rejected => true
    | _ => false)
  if p = s.sqc.r ∧ removed then (s, { c with content := .unknown, stray := false }) else (s, c)

/-- Every slot from a position moves up by one; the last has left the chain. -/
def moveSlots : Nat → List Slot → State → State × List Slot
  | _, [], s => (s, [])
  | _, [_], s => (s, [])
  | p, c :: rest, s =>
    let (t, c') := passSlot p c s
    let (u, rest') := moveSlots (p + 1) rest t
    (u, c' :: rest')

/-- The slot at Q leaves the chain: to the head in DIRECT (R58), to the tape in TAPE_OUT (R115). -/
def slotLeaves (c : Slot) (s : State) : State :=
  if runMode s = some .tapeOut then tapeTake c (deliver .empty s)
  else
    match c.content with
    | .empty => deliver (if c.stray then .unknown else .empty) s
    | .unknown => deliver .unknown s
    | .item _ _ =>
      match c.holds with
      | some i => deliver (.item i) s
      | none => deliver .unknown s

/-- The fire frame is composed from the slots in position order (R93). -/
def composeFrame : Nat → List Slot → State → State × List Slot × List Nat
  | _, [], s => (s, [], [])
  | p, c :: rest, s =>
    let (t, c', d) : State × Slot × List Nat := match c.content with
      | .item i .assigned =>
        let e := dispenserOfItem i s
        if e.position = p then
          match e.state with
          | .enabled => (s, c, [(stepOf i s).dispenser.val])
          | .disabled => (s, c, [])
          | _ => (placeReturned i s, { c with content := .empty }, [])
        else (s, c, [])
      | _ => (s, c, [])
    let (u, rest', ds) := composeFrame (p + 1) rest t
    (u, c' :: rest', d ++ ds)

/-- VSEL for a slot: the dispenser of its item, or 63 (R96). -/
def vselOf (c : Slot) (s : State) : Nat :=
  match c.content with
  | .item i _ => (stepOf i s).dispenser.val
  | _ => vselNone

/-- One indexing of the chain map (R88). -/
def chainIndex (s : State) : State :=
  let s1 := slotLeaves (slotAt s.sqc.q s) s
  let (s2, moved) := moveSlots 1 s.sqc.chain s1
  let (s3, first) := assign s2
  let chain := first :: moved
  let atV := chain.getD (s.sqc.v - 1) .unknown
  let (s4, chain', frame) := composeFrame 1 chain s3
  let s5 := { s4 with sqc := { s4.sqc with chain := chain', vsel := vselOf atV s3, verdict := .undecided, frame := some frame } }
  panelTest (judgeStarved s5)

/-- INDEX (R58, R88, R119): the chain indexes in DIRECT and TAPE_OUT, the tape feeds in TAPE_IN; otherwise VSEL is 63 and
no verdict window opens. -/
def atIndex (s : State) : State :=
  if inRun s then
    let t := { s with stu := { s.stu with indexFired := true } }
    match runMode t with
    | some .tapeIn => panelTest (tapeFeed { t with sqc := { t.sqc with vsel := vselNone, verdict := .closed } })
    | some _ => chainIndex t
    | none => t
  else { s with sqc := { s.sqc with vsel := vselNone, verdict := .closed } }

/-! ### Firing (R94) -/

/-- One dispenser of the frame at FIRE: its slot becomes LOADED, or EMPTY when the dispenser is no longer ENABLED. The
dispensers that fired are collected. -/
def fireOne (acc : State × List Nat) (n : Nat) : State × List Nat :=
  let (s, fired) := acc
  if h : n < 48 then
    let d := s.sqc.dispensers[n]
    let c := slotAt d.position s
    match c.content with
    | .item i .assigned =>
      if d.state = .enabled then (setSlot d.position { c with content := .item i .loaded } s, fired ++ [n])
      else (setSlot d.position { c with content := .empty } (placeReturned i s), fired)
    | _ => (s, fired)
  else acc

/-- FIRE (R94): in RUNNING and STOPPING the held frame is fired and its sending on the dispenser bus begins (R95). The items of
dispensers no longer ENABLED are returned in the order of the frame (notes/assumptions/47.md); a frame still being sent is replaced
(notes/assumptions/24.md). -/
def atFire (s : State) : State :=
  if inRun s then
    match s.sqc.frame with
    | none => s
    | some frame =>
      let (t, fired) := frame.foldl fireOne (s, [])
      { t with sqc := { t.sqc with frame := none
                                   dsp := if fired.isEmpty then t.sqc.dsp else some { frame := fired, elapsed := 0 } } }
  else s

/-! ### Verdicts (R97, R98, R102) -/

/-- A verdict enters a history of at most 8 (R102). -/
def verdictAdd (h : List VCode) (c : VCode) : List VCode := (h ++ [c]).drop (h.length + 1 - 8)

/-- The failure count after a verdict (R102). -/
def failuresAfter (d : Dispenser) (c : VCode) : Nat :=
  match c with
  | .pass => 0
  | .noPart => d.failures
  | .failValue => min (d.failures + 1) Config.countMax
  | .failPolarity => if d.cls = .polarized then min (d.failures + 1) Config.countMax else d.failures

/-- The verdict raises the failure count (R102); a count that holds at 255 counts as raised. -/
def raisesFailures (d : Dispenser) (c : VCode) : Bool :=
  c == .failValue || (c == .failPolarity && d.cls == .polarized)

/-- Replacing an entry of the dispenser table. -/
def setDispenserRec (n : Fin 48) (d : Dispenser) (s : State) : State :=
  { s with sqc := { s.sqc with dispensers := s.sqc.dispensers.set n.val d } }

/-- A DISPENSER report of the entry as it stands (R103). -/
def dispenserReport (n : Fin 48) (cause : DispenserCause) (s : State) : State :=
  enqueue (.dispenser n.val s.sqc.dispensers[n].state cause s.sqc.dispensers[n].history) s

/-- A verdict on an item is entered at its dispenser and tested against the thresholds (R102). The DISPENSER report of cause SUSPECT
comes before the report of REEL_SUSPECT (notes/assumptions/26.md). -/
def enterVerdict (i : Item) (c : VCode) (s : State) : State :=
  let n := (stepOf i s).dispenser
  let old := s.sqc.dispensers[n]
  let d := { old with history := verdictAdd old.history c, failures := failuresAfter old c }
  let t := setDispenserRec n d s
  if old.state = .enabled then
    if c = .noPart ∧ s.store.depletion ≤ d.history.count .noPart then
      dispenserReport n .depletion (setDispenserRec n { d with state := .depleted } t)
    else if raisesFailures old c && decide (s.store.suspect ≤ d.failures) then
      raiseD .reelSuspect (some i) (some s.sqc.v) (Int.ofNat n.val)
        (dispenserReport n .suspect (setDispenserRec n { d with state := .suspended } t))
    else t
  else t

/-- The code of a verdict (R185). -/
def codeOfVerdict : VCode → Int
  | .noPart => 0
  | .pass => 1
  | .failValue => 2
  | .failPolarity => 3

/-- A verdict on the slot at V (R97, R98). -/
def applyVerdict (c : VCode) (s : State) : State :=
  let slot := slotAt s.sqc.v s
  match slot.content with
  | .item i .loaded =>
    let t := enterVerdict i c s
    if c = .pass then setSlot s.sqc.v { slot with content := .item i .passed, judged := true } t
    else returnWithTry i (setSlot s.sqc.v { slot with content := .item i .rejected, judged := true } t)
  | .item _ _ => s
  | content =>
    if c = .noPart then setSlot s.sqc.v { content := .empty, stray := false, judged := true } s
    else
      raiseW .strayPart none (some s.sqc.v) (codeOfVerdict c)
        (setSlot s.sqc.v { content := content, stray := true, judged := true } s)

/-- The item in the slot at V. -/
def itemAtV (s : State) : Option Item :=
  match (slotAt s.sqc.v s).content with
  | .item i _ => some i
  | _ => none

/-- VERIFY_CLOSE (R96): an undecided window is given FAIL_VALUE and VERIFIER_SILENT is raised; the window closes. -/
def atVerifyClose (s : State) : State :=
  if s.sqc.verdict = .undecided then
    let t := raiseW .verifierSilent (itemAtV s) (some s.sqc.v) (Int.ofNat s.sqc.vsel) (applyVerdict .failValue s)
    panelTest { t with sqc := { t.sqc with verdict := .closed } }
  else { s with sqc := { s.sqc with verdict := .closed } }

end Sys2Proof.Machine
end

