-- ==== Sys2Proof/Machine/Channels.lean ====
section
/-! DEFINITION. The actuator channels in motion: gates and switching (R38 to R41), edge triggers (R39), what an output that
comes on does (R99, R191), adoption of settings (R42), the overrun guard and its lock (R43, R44). -/

namespace Sys2Proof.Machine

/-! ### An output comes on -/

/-- A slot cleared by REJECT: EMPTY, its stray flag clear, its former item dropped (R99). -/
def Slot.cleared (c : Slot) : Slot := { c with content := .empty, stray := false }

/-- The head load when EJECT's output goes on: eject-done is set while the content is UNKNOWN or SURPLUS (R63). -/
def ejectOn (s : State) : State :=
  if s.wmu.head.content == .unknown || s.wmu.head.content == .surplus then
    setHead { s.wmu.head with ejectDone := true } s
  else s

/-- DRIVE's output goes on: the drive-done flag of the head load, and the switch-on that CLINCH's gate reads (R40). -/
def driveOn (s : State) : State :=
  setHead { s.wmu.head with driveDone := true } { s with stu := { s.stu with driveOn := true } }

/-- What a channel's output does when it comes on by its command. -/
def outputOn (i : ChannelNo) (s : State) : State :=
  match i with
  | 3 => driveOn s
  | 5 => ejectOn s
  | 6 => setSlot s.sqc.r (slotAt s.sqc.r s).cleared s
  | _ => s

/-- What a channel's command does when it goes on, whatever its output: GRIP marks the head load (R59), CHAIN and FEED set
the since-close marks of the windows that check them (R55). -/
def commandMarks (i : ChannelNo) (s : State) : State :=
  match i with
  | 0 => setHead { s.wmu.head with gripped := true } s
  | 7 => markWindows .chain s
  | 8 => markWindows .tape s
  | _ => s

/-! ### Switching -/

/-- The channel is switched with no gate: GRIP and EJECT in a dry revolution (R37). -/
def ungated (s : State) : Bool := s.msv.state == .service

/-- A channel whose command goes on; in EDGE mode its trigger becomes running (R39). -/
def Channel.commandOn (c : Channel) : Channel :=
  { c with command := true, onTravel := 0, releaseTimer := 0
           trigger := match c.active.mode with
             | .edge .. => .running
             | .angle .. => c.trigger }

/-- A channel's command goes on, with what its marks and its output do. A command that is on stays as it is. -/
def commandOn (i : ChannelNo) (s : State) : State :=
  let c := s.stu.channels[i]
  if c.command then s
  else
    let before := channelOutput i c
    let t := commandMarks i (setChannelRec i c.commandOn s)
    if channelOutput i c.commandOn && !before then outputOn i t else t

/-- The eject mark is cleared when EJECT's gate is evaluated, open or closed (R41). -/
def clearMark (i : ChannelNo) (s : State) : State :=
  if i = 5 then setHead { s.wmu.head with ejectMark := false } s else s

/-- An armed trigger whose gate is closed becomes spent (R39). -/
def spendTrigger (i : ChannelNo) (s : State) : State :=
  let c := s.stu.channels[i]
  match c.active.mode with
  | .edge .. => if c.command then s else setChannelRec i (pulseOver c) s
  | .angle .. => s

/-- The switch-on point of a channel: its gate is evaluated and the command goes on if it is open (R38, R39). -/
def trySwitch (i : ChannelNo) (s : State) : State :=
  if ungated s then commandOn i s
  else
    let t := clearMark i s
    if gateOpen i s then commandOn i t else spendTrigger i t

/-! ### A forward crossing -/

/-- The crossing counts toward the pulse of a channel whose command is on (R39, R42). -/
def countPulse (i : ChannelNo) (s : State) : State :=
  let c := s.stu.channels[i]
  if c.command then setChannelRec i { c with onTravel := c.onTravel + 1 } s else s

/-- An armed trigger counts the crossing; at its delay the gate is evaluated (R39). -/
def countDelay (i : ChannelNo) (n delay : Nat) (s : State) : State :=
  let t := setChannelRec i { s.stu.channels[i] with trigger := .armed (n + 1) } s
  if delay ≤ n + 1 then trySwitch i t else t

/-- The forward crossing of an angle reaches a channel (R38, R39). -/
def crossChannel (a : Angle) (i : ChannelNo) (s : State) : State :=
  if maySwitch i s then
    match s.stu.channels[i].active.mode with
    | .angle on off =>
      let t := countPulse i s
      if a = off then commandOff i t else if a = on then trySwitch i t else t
    | .edge _ _ delay width =>
      match s.stu.channels[i].trigger with
      | .armed n => countDelay i n delay s
      | .running =>
        let t := countPulse i s
        if width ≤ t.stu.channels[i].onTravel then commandOff i t else t
      | _ => s
  else s

/-- The crossing reaches every channel, in channel order. -/
def crossChannels (a : Angle) (s : State) : State := allChannels.foldl (fun t i => crossChannel a i t) s

/-- The crossing switches a channel: it is an angle of the channel, or ends a count of its trigger. -/
def channelTouched (a : Angle) (i : ChannelNo) (s : State) : Bool :=
  let c := s.stu.channels[i]
  maySwitch i s &&
    (match c.active.mode with
     | .angle on off => a == on || a == off
     | .edge _ _ delay width =>
       match c.trigger with
       | .armed n => decide (delay ≤ n + 1)
       | .running => decide (width ≤ c.onTravel + 1)
       | _ => false)

/-- The crossing reaches a window: its lo, or its hi while it is open (R53). -/
def windowTouched (a : Angle) (n : Fin 12) (s : State) : Bool :=
  let w := s.wmu.windows[n]
  windowsWorked s && w.active.role != .unused && (a == w.active.lo || (w.isOpen && a == w.active.hi))

/-! ### Edge triggers -/

/-- BOUNDARY opens the edge capture of an EDGE-mode channel; one whose pulse is in progress opens when it is spent
(R39). -/
def Channel.openCapture (c : Channel) : Channel :=
  match c.active.mode with
  | .edge .. =>
    match c.trigger with
    | .spent => { c with trigger := .opened }
    | .opened => c
    | _ => { c with nextOpen := true }
  | .angle .. => c

/-- BOUNDARY opens the edge captures of the channels that may be switched (R35, R45). -/
def openCaptures (s : State) : State := mapChannels (fun i c => if maySwitch i s then c.openCapture else c) s

/-- An accepted edge reaches a channel: the first of the named sense after BOUNDARY arms it; a delay of 0 evaluates the gate
at the edge itself (R39). -/
def edgeChannel (input : InputNo) (e : Edge) (i : ChannelNo) (s : State) : State :=
  let c := s.stu.channels[i]
  match c.active.mode with
  | .edge source sense delay _ =>
    if maySwitch i s && c.trigger == .opened && source == input && sense == e then
      let t := setChannelRec i { c with trigger := .armed 0 } s
      if delay = 0 then trySwitch i t else t
    else s
  | .angle .. => s

/-- An accepted edge reaches the channels, in channel order. -/
def edgeChannels (input : InputNo) (e : Edge) (s : State) : State :=
  allChannels.foldl (fun t i => edgeChannel input e i t) s

/-- An armed trigger whose crossings reach the delay (R39). -/
def delayReached (i : ChannelNo) (s : State) : State :=
  match s.stu.channels[i].trigger with
  | .armed _ => if maySwitch i s then trySwitch i s else s
  | _ => s

/-- A running trigger whose crossings reach the width (R39). -/
def widthReached (i : ChannelNo) (s : State) : State :=
  match s.stu.channels[i].trigger with
  | .running => commandOff i s
  | _ => s

/-! ### The overrun guard (R43, R44) -/

/-- A channel that the overrun guard has turned off: command and force off, the lock set. -/
def Channel.overrun (i : ChannelNo) (c : Channel) : Channel :=
  { c.quiet i with force := false, onTimer := 0, locked := true, releaseTimer := 0 }

/-- The item that CHANNEL_OVERRUN names: that of the head load, for channels 0 to 4 (R43). -/
def overrunItem (i : ChannelNo) (s : State) : Option Item := if i.val ≤ 4 then headItem s else none

/-- A channel's on-timer reaches its overrun limit (R43). -/
def overrun (i : ChannelNo) (s : State) : State :=
  raiseFault .channelOverrun .s (overrunItem i s) none (Int.ofNat i.val)
    (setChannelRec i (s.stu.channels[i].overrun i) s)

/-- The on-timer of a channel that is on has reached its limit. -/
def overrunDue (i : ChannelNo) (s : State) : Bool :=
  let c := s.stu.channels[i]
  channelOutput i c && decide (c.active.limit ≤ c.onTimer)

/-- The guard looks at a channel. -/
def guardChannel (i : ChannelNo) (s : State) : State := if overrunDue i s then overrun i s else s

/-- Pending settings of every channel are adopted; a new limit that the on-timer has already reached acts at once (R42,
R43). -/
def adoptChannels (s : State) : State :=
  let due := allChannels.filter fun i => s.stu.channels[i].staged.isSome
  due.foldl (fun t i => guardChannel i t) (mapChannels (fun i c => c.adopt i) s)

/-- Pending settings of every window are adopted (R52). -/
def adoptWindows (s : State) : State := mapWindows Window.adopt s

/-- A lock whose release timer reaches 500 ms is cleared (R44). -/
def releaseLock (i : ChannelNo) (s : State) : State :=
  let c := s.stu.channels[i]
  if c.locked && !c.command && !c.force then setChannelRec i { c with locked := false, releaseTimer := 0 } s else s

/-! ### Forces (R37, R191) -/

/-- What a channel's output does when it comes on by force: CHAIN forgets the chain map, FEED jams the reel, EJECT clears
the head (R191, R63). -/
def forcedOn (i : ChannelNo) (s : State) : State :=
  match i with
  | 5 => ejectOn s
  | 7 => forgetChain s.sqc.q s
  | 8 => reportReel (reelState s) { s with tmu := { s.tmu with jammed := true } }
  | _ => s

/-- A channel's force is set, with what its output does. -/
def setForce (i : ChannelNo) (on : Bool) (s : State) : State :=
  let c := s.stu.channels[i]
  let d := timed i { c with force := on, releaseTimer := if on then 0 else c.releaseTimer }
  let t := setChannelRec i d s
  if channelOutput i d && !channelOutput i c then forcedOn i t else t

end Sys2Proof.Machine
end

