-- ==== Sys2Proof/Machine/Shaft.lean ====
section
/-! DEFINITION. The shaft: landmarks and their delivery (R33 to R35), the decision at COMMIT (R12 to R14), forward and reverse
counts (R25, R31), the index mark (R26 to R29), rest (R6 to R8), stall (R30). -/

namespace Sys2Proof.Machine

/-! ### Free orders -/

/-- The next free order: the value that Config gives for the counter, which goes up by one. -/
def takeChoice (free : Nat → Bool) (s : State) : Bool × State :=
  (free s.clock.choice, { s with clock := { s.clock with choice := s.clock.choice + 1 } })

/-- Two parts of one event, in the order that a flag gives. -/
def inOrder (firstFirst : Bool) (f g : State → State) (s : State) : State :=
  if firstFirst then g (f s) else f (g s)

/-- Two parts of one event in a free order, which is taken only where the order matters. -/
def eitherOrder (free : Nat → Bool) (matters : Bool) (f g : State → State) (s : State) : State :=
  if matters then
    let (o, t) := takeChoice free s
    inOrder o f g t
  else g (f s)

/-! ### Delivery of the landmarks -/

/-- The supervisor's decision at COMMIT (R12, R14). -/
def commitDecision (v : Verdict) (s : State) : State :=
  match s.msv.state with
  | .running .cycling =>
    if s.msv.finishing || (dwellEmpty s && v != .noFit) then s
    else
      let t := dropTrip true s
      { t with msv := { t.msv with finishing := true } }
  | .stopping =>
    let t := dropTrip true s
    { t with msv := { t.msv with finishing := true } }
  | _ => s

/-- COMMIT makes a plan: in RUNNING and STOPPING, but not in CYCLING with finishing set (R150). -/
def commitPlans (s : State) : Bool := inRun s && !(inCycling s && s.msv.finishing)

/-- COMMIT (R12, R14): a pending FAULT, the tape judgement, the move plan, the decision. -/
def atCommit (s : State) : State :=
  let s1 := addPendingFault { s with msv := { s.msv with commitPassed := true } }
  let s2 := judgeDelivery s1
  if commitPlans s2 then
    let (s3, v) := commitPlan s2
    commitDecision v s3
  else s2

/-- OPEN in the Motion Unit: a HELD plan has met its OPEN (R151). -/
def atOpenMove (s : State) : State :=
  startHeld { s with mot := { s.mot with held := s.mot.held.map fun p => { p with openMet := true } } }

/-- OPEN (R151, R62); the order of the two blocks is free where a plan is HELD (notes/assumptions/8.md). -/
def atOpen (s : State) : State := eitherOrder Config.outcomeFirst s.mot.held.isSome atOpenOutcome atOpenMove s

/-- A landmark is delivered to the blocks that act on it (R34). -/
def deliverLandmark (l : Landmark) (s : State) : State :=
  match l with
  | .close => atClose s
  | .commit => atCommit s
  | .opening => atOpen s
  | .index => atIndex s
  | .fire => atFire s
  | .verifyClose => atVerifyClose s

/-- The landmark at the pointer fires when its angle is crossed; in RUNNING, DWELL no other block hears of it (R34). -/
def fireLandmark (l : Landmark) (s : State) : State :=
  let t := { s with stu := { s.stu with pointer := l.next } }
  if inDwell t then t else deliverLandmark l t

/-- The landmark that the crossing of an angle fires. -/
def landmarkAt (a : Angle) (s : State) : Option Landmark :=
  match s.stu.pointer with
  | some l => if a = s.store.landmarks.angleOf l then some l else none
  | none => none

/-- BOUNDARY in the STU (R35): the pointer, the cycle number, the pending channel settings, the edge captures. A new
revolution has seen no settled report and no DRIVE (R40), and no INDEX (R41). -/
def boundaryShaft (s : State) : State :=
  openCaptures (adoptChannels
    { s with stu := { s.stu with pointer := some .close, cycle := s.stu.cycle + 1, driveOn := false
                                 indexFired := false }
             mot := { s.mot with settled := false } })

/-- BOUNDARY in the other blocks: the trip held through home (R3), the pending window settings (R52). -/
def boundaryOthers (s : State) : State :=
  adoptWindows { s with msv := { s.msv with heldThrough := s.msv.trip && s.msv.commitPassed } }

/-- BOUNDARY, the forward crossing of angle 0 (R34, R35). The settled report of DRIVE's gate belongs to its revolution, in
every machine state (R40). -/
def boundary (s : State) : State :=
  let dwell := inDwell s
  let t := boundaryShaft s
  if dwell then t else boundaryOthers t

/-! ### A forward crossing -/

/-- The windows and the channels at one crossing; their order is free where both are reached (notes/assumptions/7.md). -/
def crossDevices (windows : Bool) (a : Angle) (s : State) : State :=
  if windows then
    eitherOrder Config.windowsFirst
      (allWindows.any (fun n => windowTouched a n s) && allChannels.any (fun i => channelTouched a i s))
      (crossWindows a) (crossChannels a) s
  else crossChannels a s

/-- The forward crossing of an angle, with the angle synchronized: BOUNDARY, then the landmark before the channels (R34).
A window reached together with a landmark is taken in a free order (notes/assumptions/7.md). -/
def crossing (a : Angle) (s : State) : State :=
  let s := if a = 0 then boundary s else s
  match landmarkAt a s with
  | some l =>
    if allWindows.any fun n => windowTouched a n s then
      let (first, t) := takeChoice Config.windowsBeforeLandmark s
      if first then crossDevices false a (fireLandmark l (crossWindows a t))
      else crossDevices true a (fireLandmark l t)
    else crossDevices true a (fireLandmark l s)
  | none => crossDevices true a s

/-- The angle has moved forward by one: the move pays off the retrace count or is a forward crossing (R25). -/
def forwardMove (s : State) : State :=
  let t := { s with stu := { s.stu with angle := s.stu.angle + 1 } }
  if 0 < t.stu.retrace then { t with stu := { t.stu with retrace := t.stu.retrace - 1 } }
  else if t.stu.synced then crossing t.stu.angle t
  else t

/-! ### Encoder counts (R25) -/

/-- What every count does: the shaft is not at rest and the rest time starts again (R6), the stall timer starts again
(R30), the travel count (R26). -/
def countMade (reverse : Bool) (s : State) : State :=
  { s with
    msv := { s.msv with atRest := false, restTimer := 0 }
    stu := { s.stu with travel := min (s.stu.travel + 1) Config.holdMax, lastReverse := reverse
                        stallTimer := s.stu.stallTimer.map fun _ => { time := s.store.landmarks.stall, elapsed := 0 } } }

/-- The forward travel of a single revolution (R5). -/
def singleCount (d : Int) (s : State) : State :=
  { s with msv := { s.msv with single := s.msv.single.map fun r => { r with travel := r.travel + d } } }

/-- The trip of a single revolution is dropped, as a commanded stop at home (R5, R7). -/
def dropSingle (s : State) : State :=
  match s.msv.single with
  | some r =>
    if s.msv.trip && !r.dropped then
      let t := dropTrip true s
      { t with msv := { t.msv with single := some { r with dropped := true } } }
    else s
  | none => s

/-- The single revolution has moved 1,024 ac forward (R5). -/
def singleDue (s : State) : Bool :=
  match s.msv.single with
  | some r => decide ((Config.singleTravel : Int) ≤ r.travel)
  | none => false

/-- A forward count (R25). -/
def forward (s : State) : State :=
  let t := singleCount 1 (countMade false s)
  let e := t.stu.excursion - 1
  let t := { t with stu := { t.stu with excursion := e, reverseRaised := t.stu.reverseRaised && decide (e ≠ 0) } }
  forwardMove (if singleDue t then dropSingle t else t)

/-- A reverse count in the counters of the STU (R25, R29). -/
def reverseCounters (s : State) : State :=
  let e := min (s.stu.excursion + 1) Config.holdMax
  { s with stu := { s.stu with angle := s.stu.angle - 1, retrace := min (s.stu.retrace + 1) Config.holdMax
                               excursion := e, engaged := s.stu.engaged && decide (e ≤ Config.homeBand) } }

/-- SHAFT_REVERSE is due: the excursion has passed from 64 to 65 in RUNNING or STOPPING, not yet raised for it (R31). -/
def reverseDue (before : Nat) (s : State) : Bool :=
  inRun s && decide (before = Config.homeBand) && decide (s.stu.excursion = Config.homeBand + 1) && !s.stu.reverseRaised

/-- A reverse count (R25, R31). -/
def reverse (s : State) : State :=
  let t := reverseCounters (singleCount (-1) (countMade true s))
  if reverseDue s.stu.excursion t then
    raiseFault .shaftReverse .s none none 65 { t with stu := { t.stu with reverseRaised := true } }
  else t

/-! ### The index mark (R26 to R29) -/

/-- The engaged flag at a qualified index: the trip is on, and no excursion beyond 64 stands, which would be part of the
interval that begins here (R29: "throughout which the trip was held … and the excursion stayed within 64"). -/
def engages (s : State) : Bool := s.msv.trip && decide (s.stu.excursion ≤ Config.homeBand)

/-- The period timer at a qualified index: its value becomes the period, VALID if the engaged flag was still set; the timer
and the engaged interval start again (R29). -/
def measurePeriod (s : State) : State :=
  let measured := match s.stu.periodTimer with
    | some p => { s.stu with period := p, periodValid := s.stu.engaged }
    | none => s.stu
  { s with stu := { measured with periodTimer := some 0, engaged := engages s } }

/-- The first qualified index synchronizes the angle (R27). -/
def synchronize (s : State) : State :=
  let p := s.store.landmarks
  { s with stu := { s.stu with angle := p.offset, synced := true, retrace := 0, pointer := pointerAbove p p.offset
                               periodTimer := some 0, engaged := engages s } }

/-- n forward moves made one after another (R28). -/
def forwardMoves : Nat → State → State
  | 0, s => s
  | n + 1, s => forwardMoves n (forwardMove s)

/-- The index error e (R28). -/
def indexError (s : State) : Int := (s.stu.angle - s.store.landmarks.offset).toInt

/-- The correction jump (R28). -/
def correct (e : Int) (s : State) : State :=
  if 0 < e then
    { s with stu := { s.stu with angle := s.store.landmarks.offset
                                 retrace := min (s.stu.retrace + e.toNat) Config.holdMax } }
  else forwardMoves (-e).toNat s

/-- A later qualified index corrects the angle; an error beyond the tolerance is ENCODER_SLIP (R28), raised when every crossing
of a forward jump has been made (notes/assumptions/26.md). -/
def indexCheck (s : State) : State :=
  let e := indexError s
  let t := correct e s
  if s.store.landmarks.tolerance < e.natAbs then raiseAt .encoderSlip .s none none s.stu.angle e t else t

/-- An index edge taken: a qualified one returns the travel count to 0 and synchronizes or corrects (R26). -/
def indexTaken (s : State) : State :=
  if s.stu.travel < Config.qualifiedTravel then s
  else
    let t := { s with stu := { s.stu with travel := 0 } }
    if t.stu.synced then indexCheck (measurePeriod t) else synchronize t

/-- An accepted rise of the index input; an edge after a reverse count is not taken (R26). -/
def indexRise (s : State) : State :=
  if s.stu.indexInput.accepted then s
  else
    let t := { s with stu := { s.stu with indexInput := { raw := true, accepted := true, candidate := 0 } } }
    if t.stu.lastReverse then t else indexTaken t

/-- An accepted fall of the index input (R26). -/
def indexFall (s : State) : State :=
  if s.stu.indexInput.accepted then
    { s with stu := { s.stu with indexInput := { raw := false, accepted := false, candidate := 0 } } }
  else s

/-! ### Rest (R6 to R8) -/

/-- The distance of the angle from home, judged at a rest: within 64 ac of 0 (R2). -/
def restsHome (s : State) : Bool := s.stu.synced && decide (homeDistance s.stu.angle ≤ Config.homeBand)

/-- What every rest does: the off-home flag (R2), the engaged flag and the period (R29), a pending FAULT (R10). -/
def restJudge (s : State) : State :=
  addPendingFault
    { s with msv := { s.msv with atRest := true, offHome := !restsHome s }
             stu := { s.stu with engaged := false, periodValid := false } }

/-- A rest ends a sync revolution, dropped by R5, with the angle unsynchronized (R32). -/
def syncFailed (s : State) : Bool :=
  match s.msv.single with
  | some r => r.kind == .sync && r.dropped && !s.stu.synced
  | none => false

/-- A rest ends a commanded stop away from home (R7), or an uncommanded movement in DWELL did (R8). -/
def overtravels (s : State) : Bool :=
  (s.msv.commandedStop && s.stu.synced && decide (Config.homeBand < homeDistance s.stu.angle)) ||
    (inDwell s && s.msv.offHome)

/-- A revolution ended by a rest: the brake applied, no commanded stop, no single revolution (R4). -/
def revolutionOver (s : State) : State :=
  { s with msv := { s.msv with brake := true, commandedStop := false, single := none } }

/-- The rest that ends a dry revolution: TEST_DONE with its forward travel (R189, R192); GRIP and EJECT may no longer be
switched (R37). -/
def dryOver (r : SingleRev) (cause : EndCause) (s : State) : State :=
  let t := finishService (.dry cause) cause.result.1 cause.result.2 { s with msv := { s.msv with single := some r } }
  mapChannels (fun i c => c.quiet i) { t with msv := { t.msv with single := none } }

/-- The action by state at a rest (R8). single is the single revolution that the rest ends. -/
def restByState (single : Option SingleRev) (s : State) : State :=
  match s.msv.state with
  | .running .cycling =>
    if s.msv.finishing then { s with msv := { s.msv with state := .running .dwell, finishing := false } } else s
  | .stopping => leaveRun .stopped s
  | .homing => homeProgress s
  | .stopped => if s.msv.offHome then enterState .unhomed s else s
  | .service =>
    match single, s.mot.service with
    | some r, some (.dry cause) => dryOver r cause s
    | _, _ => s
  | _ => s

/-- A rest that ends a revolution, or follows an uncommanded movement (R7, R8, R32). -/
def restEnds (s : State) : State :=
  if syncFailed s then
    revolutionOver (raiseFault .syncFail .s none none (singleTravel s) s)
  else if overtravels s then
    revolutionOver (raiseFault .shaftOvertravel .s none none (Int.ofNat s.stu.angle.toNat) s)
  else
    restByState s.msv.single (revolutionOver s)

/-- The shaft reaches rest (R6): with the trip still on no revolution ends. -/
def rest (s : State) : State :=
  if s.msv.atRest then s
  else
    let t := restJudge s
    if t.msv.trip then t else restEnds t

/-! ### Stall (R30) -/

/-- The stall timer reaches the stall time that it was started with. -/
def stall (s : State) : State :=
  match s.stu.stallTimer with
  | some t => if s.msv.trip then raiseFault .shaftStall .s none none (Int.ofNat t.time) s else s
  | none => s

end Sys2Proof.Machine
end

