-- ==== Sys2Proof/Machine/Inputs.lean ====
section
/-! DEFINITION. Accepted edges of the inputs: the twelve machine inputs (R48) with the board sensor (R80) and the reel end
sensor (R114, R121), VSTROBE (R96), the home inputs (R137, R138), LIMIT (R140), STOP_LINE (R168), the feedback encoders
(R132). -/

namespace Sys2Proof.Machine

/-- A filter that has accepted a level, which the pin holds (R48). -/
def Filter.accept (level : Bool) : Filter := { raw := level, accepted := level, candidate := 0 }

/-! ### Machine inputs -/

/-- The level that an edge leaves. -/
def edgeLevel (e : Edge) : Bool := e == .rise

/-- Replacing the filter of a machine input. -/
def setInput (i : InputNo) (f : Filter) (s : State) : State :=
  { s with wmu := { s.wmu with inputs := s.wmu.inputs.set i.val f } }

/-- The panel that a lost board belongs to: an open panel of mode DIRECT or TAPE_IN (R80). -/
def boardPanelOpen (s : State) : Bool :=
  match s.pgs.panel with
  | some m => hasBoard m
  | none => false

/-- An accepted fall of BOARD_PRESENT in the Program Store (R80). -/
def boardFall (s : State) : State :=
  let t := { s with pgs := { s.pgs with boardAway := true, boardChanged := false } }
  if boardPanelOpen t then raiseFault .boardLost .s none none (Int.ofNat t.pgs.number.toNat) t else t

/-- An accepted rise of BOARD_PRESENT in the Program Store: a board cycled in starts a panel where R79 allows one (R80). -/
def boardRise (s : State) : State :=
  if s.pgs.boardAway then
    tryStartPanel { s with pgs := { s.pgs with boardChanged := true, boardAway := false } }
  else s

/-- The reel ends before the map: TAPE_COUNT in a tape-in run (R121). -/
def reelEnds (s : State) : State :=
  if inRun s && runMode s == some .tapeIn && decide (s.tmu.position < s.tmu.mapLength) then
    raiseD .tapeCount none none (Int.ofNat (s.tmu.mapLength - s.tmu.position)) s
  else s

/-- The reel is threaded: TAPE leaves the dwell reason set (R114). -/
def reelThreaded (s : State) : State := setDwell (fun d => { d with tape := false }) s

/-- What the owner of an input does with its accepted edge, after the windows and the triggers. reel is the reel state
before the edge. -/
def edgeOwner (reel : ReelState) (i : InputNo) (e : Edge) (s : State) : State :=
  match i, e with
  | 6, .fall => boardFall s
  | 6, .rise => boardRise s
  | 7, .rise => reelEnds (reportReel reel s)
  | 7, .fall => reelThreaded (reportReel reel s)
  | _, _ => s

/-- An accepted edge of a machine input (R48): the accepted level, then its users. An edge to the level already accepted is
none. -/
def inputEdge (i : InputNo) (e : Edge) (s : State) : State :=
  if inputLevel i s = edgeLevel e then s
  else
    edgeOwner (reelState s) i e
      (edgeChannels i e (edgeWindows i e (setInput i (Filter.accept (edgeLevel e)) s)))

/-! ### The verifier (R96) -/

/-- An accepted rise of VSTROBE: the first in an open verdict window applies the verdict that VCODE gives. -/
def strobe (c : VCode) (s : State) : State :=
  if s.sqc.vstrobe.accepted then s
  else
    let t := { s with sqc := { s.sqc with vstrobe := .accept true, vcode := c } }
    if t.sqc.verdict = .undecided then
      panelTest (applyVerdict c { t with sqc := { t.sqc with verdict := .decided } })
    else t

/-- An accepted fall of VSTROBE. -/
def strobeFall (s : State) : State :=
  if s.sqc.vstrobe.accepted then { s with sqc := { s.sqc with vstrobe := .accept false } } else s

/-! ### Home inputs -/

/-- Replacing the filter of a home input. -/
def setHomeInput (a : Axis) (f : Filter) (s : State) : State :=
  setAxisRec a { s.mot.axis a with homeInput := f } s

/-- The axis has a feedback encoder (R125). -/
def hasFeedback (a : Axis) : Bool := a == .x || a == .y

/-- An axis that its home edge has homed: IDLE, its positions loaded with the home offset (R138). -/
def AxisRec.home (a : Axis) (r : AxisRec) : AxisRec :=
  { r.still with state := .idle, commanded := r.homeOffset
                 feedback := if hasFeedback a then r.homeOffset else r.feedback, homePending := false }

/-- The axis is searching in its search direction, and its search is not ending: the home edge of one that a STOP or a class S action
is ending does not home it (notes/assumptions/51.md). -/
def searchesForward (r : AxisRec) : Bool :=
  match r.drive with
  | .search false _ _ _ false => r.state == .homing
  | _ => false

/-- Whether an axis that is backing off turns round at the end of its tick (R137). -/
def AxisRec.turning (turns : Bool) (r : AxisRec) : AxisRec :=
  match r.drive with
  | .search true rate issued _ ending => { r with drive := .search true rate issued turns ending }
  | _ => r

/-- An accepted rise of a home input homes its searching axis; one within a back-off lets it go on until the next fall (R138). -/
def homeRise (a : Axis) (s : State) : State :=
  if (s.mot.axis a).homeInput.accepted then s
  else
    let t := setHomeInput a (.accept true) s
    if searchesForward (t.mot.axis a) then
      homeProgress (startSearches (searchOver a (setAxisRec a ((t.mot.axis a).home a) t)))
    else setAxisRec a ((t.mot.axis a).turning false) t

/-- An accepted fall of a home input ends a back-off (R137). -/
def homeFall (a : Axis) (s : State) : State :=
  if (s.mot.axis a).homeInput.accepted then
    let t := setHomeInput a (.accept false) s
    setAxisRec a ((t.mot.axis a).turning true) t
  else s

/-! ### Feedback (R132) -/

/-- A count of a feedback encoder; in an INTERNAL loop test on the axis it is not counted (R194), so that no later
following check finds a push made during the test (notes/assumptions/58.md). -/
def feedback (a : TableAxis) (positive : Bool) (s : State) : State :=
  if internalLoop (tableAxis a) s then s
  else
    let r := s.mot.axis (tableAxis a)
    setAxisRec (tableAxis a)
      { r with feedback := movePosition (tableAxis a) r.feedback (if positive then 1 else -1) } s

/-! ### LIMIT and STOP_LINE -/

/-- The number that LIMIT_SWITCH gives an axis that is MOVING or HOMING (R140). -/
def limitBit (a : Axis) (s : State) : Int :=
  let st := (s.mot.axis a).state
  if st = .moving ∨ st = .homing then
    match a with
    | .x => 1
    | .y => 2
    | .span => 4
    | .rot => 8
  else 0

/-- The item of the planned move in flight. -/
def planItem (s : State) : Option Item :=
  match s.mot.running with
  | some p => p.item
  | none => none

/-- An accepted rise of LIMIT (R140). -/
def limitRise (s : State) : State :=
  if s.mot.limit.accepted then s
  else
    raiseFault .limitSwitch .h (planItem s) none (limitBit .x s + limitBit .y s + limitBit .span s + limitBit .rot s)
      { s with mot := { s.mot with limit := .accept true } }

/-- An accepted fall of LIMIT (R140). -/
def limitFall (s : State) : State :=
  if s.mot.limit.accepted then { s with mot := { s.mot with limit := .accept false } } else s

/-- An accepted rise of STOP_LINE (R168). -/
def stopLineRise (s : State) : State :=
  if s.fau.stopLine.accepted then s
  else raiseFault .stopLine .h none none 0 { s with fau := { s.fau with stopLine := .accept true } }

/-- An accepted fall of STOP_LINE (R168). -/
def stopLineFall (s : State) : State :=
  if s.fau.stopLine.accepted then { s with fau := { s.fau with stopLine := .accept false } } else s

end Sys2Proof.Machine
end

