-- ==== Sys2Proof/Machine/Supervisor.lean ====
section
/-! DEFINITION. The requests of the Machine Supervisor and the Fault and Alarm Unit: HOME (R19), RUN (R15, R84, R106, R114,
R154), STOP (R18, R20, R189), CLEAR_FAULT (R166), SILENCE (R169), ACK_WARNINGS (R170), CAPTURE_READ (R165). -/

namespace Sys2Proof.Machine

/-- What a request answers: the state after it, the status and the fields of its reply (R177). -/
abbrev Answer := State × Status × ReplyBody

/-- A refused request changes nothing, and its reply is the status alone (R177). -/
def refuse (st : Status) (s : State) : Answer := (s, st, .empty)

/-- A request taken, whose reply carries no field. -/
def accept (s : State) : Answer := (s, .ok, .empty)

/-! ### HOME (R19) -/

/-- An axis at HOME (R137): HOMING at once from IDLE or UNHOMED; home pending while a motion, or a search that is ending, is
not over. -/
def AxisRec.sendHome (r : AxisRec) : AxisRec :=
  match r.state with
  | .idle => { r with state := .homing }
  | .unhomed => { r with state := .homing }
  | _ => { r with homePending := true }

/-- HOME taken (R19, R137, R155): HOMING, a HELD plan discarded, every axis to be homed, the searches that can start. -/
def homeTaken (s : State) : State :=
  let t := enterState .homing s
  let t := { t with msv := { t.msv with home := some false }, mot := { t.mot with held := none } }
  homeProgress (startSearches (mapAxes AxisRec.sendHome t))

/-- HOME is taken in UNHOMED and in STOPPED (R19). -/
def homeAllowed (s : State) : Bool := s.msv.state == .unhomed || s.msv.state == .stopped

/-- The HOME request. -/
def homeRequest (s : State) : Answer :=
  if homeAllowed s then accept (event homeTaken s) else refuse .wrongState s

/-! ### RUN (R15) -/

/-- The program would start empty: the step count is 0, or every step below it has SKIP set (R81). -/
def startsEmpty (s : State) : Bool := (List.range s.store.stepCount).all fun n => (stepAt n s).skip

/-- The Program Store refuses RUN (R84). -/
def storeRefuses (m : RunMode) (cont : Bool) (s : State) : Bool :=
  match s.pgs.panel with
  | some p => !cont || (hasBoard p && !hasBoard m) || (!hasBoard p && hasBoard m) ||
      (hasBoard p && hasBoard m && !boardPresent s)
  | none => startsEmpty s

/-- The Tape Map Unit refuses RUN (R114). -/
def tapeRefuses (m : RunMode) (s : State) : Bool :=
  m == .tapeIn && (s.tmu.jammed || decide (s.tmu.mapLength ≤ s.tmu.position))

/-- The Program Store takes RUN (R79, R84): an open panel is continued, otherwise one is started or BOARD is added. -/
def storeRun (m : RunMode) (s : State) : State :=
  match s.pgs.panel with
  | some _ => { s with pgs := { s.pgs with panel := some m, number := 1 } }
  | none =>
    let t := { s with pgs := { s.pgs with number := 0 } }
    if mayStartPanel t then startPanel m t else setDwell (fun d => { d with board := true }) t

/-- A slot that holds an item becomes UNKNOWN (R106). -/
def Slot.forget (c : Slot) : Slot := if c.holds.isSome then { c with content := .unknown } else c

/-- The chain and the redo queue give up their items: the slots become UNKNOWN and the queue empty. -/
def dropChain (s : State) : State := { s with sqc := { s.sqc with chain := s.sqc.chain.map Slot.forget, redo := [] } }

/-- The Sequencer Controller takes RUN (R106, R104). -/
def chainRun (m : RunMode) (s : State) : State :=
  if m = .tapeIn then dropChain (pendAll s.sqc.redo (pendAll (chainItems s) s)) else judgeStarved s

/-- The Tape Map Unit takes RUN (R114). -/
def tapeRun (m : RunMode) (s : State) : State :=
  match m with
  | .direct => s
  | .tapeOut => { s with tmu := { s.tmu with lastTaped := none } }
  | .tapeIn =>
    let t := { s with tmu := { s.tmu with mark := none, mapEnd := false, lastTaped := none } }
    if tapeEnd t then setDwell (fun d => { d with tape := true }) t else t

/-- RUN taken: the run record and RUNNING, DWELL, then the blocks in the order of R15. -/
def runTaken (m : RunMode) (count : Nat) (cont : Bool) (s : State) : State :=
  let t := { s with msv := { s.msv with state := .running .dwell, finishing := false
                                        run := some { mode := m, remaining := count, cont := cont } } }
  runPlan (tapeRun m (chainRun m (storeRun m t)))

/-- One event whose STATE report is queued whatever it changed. -/
def eventStated (f : State → State) (s : State) : State :=
  let t := f s
  flushTrailing (enqueue (.state (stateView t)) t)

/-- The RUN request (R15). -/
def runRequest (mode count cont : Byte) (s : State) : Answer :=
  if s.msv.state = .stopped ∧ s.msv.atRest then
    match runModeOf mode with
    | none => refuse .badValue s
    | some m =>
      if storeRefuses m (flagOf cont) s || tapeRefuses m s then refuse .wrongState s
      else accept (eventStated (fun t => raiseIfReady (runTaken m count.toNat (flagOf cont) t)) s)
  else refuse .wrongState s

/-! ### STOP (R18) -/

/-- STOP drops the trip of a single revolution that R5 has not dropped; no commanded stop (R7, R20, R189). With the shaft at rest
no rest follows the drop by itself (notes/assumptions/42.md and 50.md). -/
def stopSingle (s : State) : State :=
  match s.msv.single with
  | some r => if r.dropped then s else dropTrip false s
  | none => s

/-- STOP in HOMING (R20, R139). A further STOP has no effect. A sync revolution whose shaft is at rest is over at once
(notes/assumptions/42.md). -/
def stopHoming (s : State) : State :=
  if s.msv.home = some false then
    activitiesOver
      (stopSingle (mapAxes AxisRec.stopSearch { s with msv := { s.msv with home := some true } }))
  else s

/-- STOP marks a service operation, unless a fault has (notes/assumptions/57.md). -/
def EndCause.stopped : EndCause → EndCause
  | .none => .stop
  | c => c

/-- STOP in SERVICE, by the operation in flight (R189). A dry revolution whose shaft is at rest stays in flight, the brake
released, until the next rest (notes/assumptions/50.md). -/
def stopOperation (s : State) : State :=
  match s.mot.service with
  | some (.jog a false c) =>
    setAxisRec a (s.mot.axis a).stopJog { s with mot := { s.mot with service := some (.jog a false c.stopped) } }
  | some (.loop a n w m b x y c) => { s with mot := { s.mot with service := some (.loop a n w m b x y c.stopped) } }
  | some (.dry c) => stopSingle { s with mot := { s.mot with service := some (.dry c.stopped) } }
  | _ => s

/-- STOP, by the machine state (R18). -/
def stopTaken (s : State) : State :=
  match s.msv.state with
  | .running _ => endRun s
  | .homing => stopHoming s
  | .service => stopOperation s
  | _ => s

/-- The STOP request. -/
def stopRequest (s : State) : Answer := accept (event stopTaken s)

/-! ### CLEAR_FAULT (R166, R22) -/

/-- HALTED is left by the home condition (R22). -/
def leaveHalted (s : State) : State :=
  if s.msv.state = .halted then enterState (if homeCondition s then .stopped else .unhomed) s else s

/-- CLEAR_FAULT taken (R166). -/
def clearTaken (s : State) : State :=
  leaveHalted
    { s with fau := { s.fau with capture := { s.fau.capture with locked := false, later := 0 }, horn := false }
             msv := { s.msv with faultPending := false, dwell := { s.msv.dwell with fault := false } } }

/-- The CLEAR_FAULT request: refused with the causes present (R166). -/
def clearRequest (s : State) : Answer :=
  if causePresent s then (s, .causePresent, .causes s.fau.stopLine.accepted s.mot.limit.accepted (anyLocked s))
  else
    let t := eventRun clearTaken s
    (t, .ok, .machine t.msv.state)

/-! ### Alarms -/

/-- The SILENCE request (R169). -/
def silenceRequest (s : State) : Answer := accept { s with fau := { s.fau with horn := false } }

/-- The ACK_WARNINGS request (R170): the reply carries the count as it stood before. -/
def ackRequest (s : State) : Answer :=
  ({ s with fau := { s.fau with warnPending := false, warnCount := 0 } }, .ok, .number s.fau.warnCount)

/-- The CAPTURE_READ request (R165). -/
def captureRequest (s : State) : Answer := (s, .ok, .capture s.fau.capture)

end Sys2Proof.Machine
end

