-- ==== Sys2Proof/Machine/Resets.lean ====
section
/-! DEFINITION. The full reset (R23, with the reset tables of every chapter) and the RESTART request (R24, R46, R66, R85, R109,
R124, R142, R155, R172, R186). -/

namespace Sys2Proof.Machine

/-! ### Full reset -/

/-- A filter after a full reset: the accepted level low and the count 0, the pin as it stands (R49, R66). -/
def Filter.cleared (f : Filter) : Filter := { raw := f.raw, accepted := false, candidate := 0 }

/-- An axis record after a full reset, its home input's pin as it stands (R142). -/
def AxisRec.afterReset (r : AxisRec) : AxisRec := { AxisRec.reset with homeInput := r.homeInput.cleared }

/-- Full reset: every block at its reset values. The pins keep their levels; the queue of commands and the counter of the free
values are the model's own and stay. -/
def fullReset (s : State) : State :=
  { State.reset with
    stu := { Stu.reset with indexInput := s.stu.indexInput.cleared }
    wmu := { Wmu.reset with inputs := s.wmu.inputs.map Filter.cleared }
    sqc := { Sqc.reset with vstrobe := s.sqc.vstrobe.cleared, vcode := s.sqc.vcode }
    mot := { Mot.reset with x := s.mot.x.afterReset, y := s.mot.y.afterReset, span := s.mot.span.afterReset
                            rot := s.mot.rot.afterReset, limit := s.mot.limit.cleared }
    fau := { Fau.reset with stopLine := s.fau.stopLine.cleared }
    clock := { micro := 0, choice := s.clock.choice }
    pending := s.pending }

/-! ### RESTART -/

/-- The supervisor at RESTART (R24); whether the shaft is at rest is not changed. -/
def Msv.restart (m : Msv) : Msv := { Msv.reset with atRest := m.atRest, restTimer := m.restTimer }

/-- A channel at RESTART (R46): pending settings adopted, command and force off, the lock clear. -/
def Channel.restart (c : Channel) : Channel :=
  { active := c.staged.getD c.active, staged := none, command := false, force := false, onTimer := 0, locked := false
    releaseTimer := 0, trigger := .spent, nextOpen := false, onTravel := 0 }

/-- The Shaft Timing Unit at RESTART (R46): the angle, the index input and the period are kept. -/
def Stu.restart (u : Stu) : Stu :=
  { Stu.reset with angle := u.angle, lastReverse := u.lastReverse, indexInput := u.indexInput, period := u.period
                   channels := u.channels.map Channel.restart }

/-- A window at RESTART (R66). -/
def Window.restart (w : Window) : Window := { Window.reset with active := w.staged.getD w.active }

/-- The Window Monitor at RESTART (R66): the inputs and the filter counts are kept. -/
def Wmu.restart (w : Wmu) : Wmu := { w with windows := w.windows.map Window.restart, head := .reset }

/-- The Program Store at RESTART (R85): BOARD_RELEASE is pulsed if a DIRECT or TAPE_IN panel was open. -/
def Pgs.restart (p : Pgs) : Pgs :=
  { p with items := [], panel := none, number := 0, boardChanged := false
           boardRelease := match p.boardRelease, p.panel with
             | none, some m => if hasBoard m then some 0 else none
             | r, _ => r }

/-- A dispenser at RESTART (R101): its history and failure count are emptied. -/
def Dispenser.restart (d : Dispenser) : Dispenser := { d with history := [], failures := 0 }

/-- The Sequencer Controller at RESTART (R109); a frame being sent is ended (R95). -/
def Sqc.restart (q : Sqc) : Sqc :=
  { q with chain := List.replicate q.q .unknown, redo := [], dispensers := q.dispensers.map Dispenser.restart, frame := none
           verdict := .closed, vsel := vselNone, dsp := none }

/-- The Tape Map Unit at RESTART (R124); TAPE_GAP pulses run to their ends. -/
def Tmu.restart (t : Tmu) : Tmu := { t with mark := none, lastTaped := none, mapEnd := false }

/-- The Fault and Alarm Unit at RESTART (R172); the flash clock runs on. -/
def Fau.restart (f : Fau) : Fau := { f with capture := .reset, warnPending := false, warnCount := 0, horn := false }

/-- The link at RESTART (R181, R186): the report queue and the overflow flag. -/
def Lnk.restart (l : Lnk) : Lnk := { l with queue := [], overflow := false, trailing := [] }

/-- Every block at its RESTART values. Service operations end with the generators, with no TEST_DONE and no restoration
(R189). -/
def restartBlocks (s : State) : State :=
  let t := cutMotion s
  { t with msv := s.msv.restart, stu := s.stu.restart, wmu := s.wmu.restart, pgs := s.pgs.restart, sqc := s.sqc.restart
           tmu := s.tmu.restart, mot := { t.mot with service := none }, fau := s.fau.restart, lnk := s.lnk.restart }

/-- The reports of a RESTART: HOME_DONE ABORTED when a HOME was in flight, then the STATE report (R20, R24, R181). -/
def restartReports (home : Bool) (s : State) : State :=
  let t := if home then enqueue (.homeDone .aborted none) s else s
  enqueue (.state (stateView t)) t

/-- A stop chain open at RESTART raises STOP_LINE once more, just after it (R168). -/
def restartStopLine (s : State) : State :=
  if s.fau.stopLine.accepted then event (raiseFault .stopLine .h none none 1) s else s

/-- The RESTART request (R24). -/
def restartRequest (s : State) : Answer :=
  accept (restartStopLine (restartReports s.msv.home.isSome (restartBlocks s)))

end Sys2Proof.Machine
end

