-- ==== Sys2Proof/Machine/Service.lean ====
section
/-! DEFINITION. Service mode: entry and exit (R188), jogs (R190), forces (R191), the dry revolution (R192), the loop test
(R193). -/

namespace Sys2Proof.Machine

/-- A service-only request outside SERVICE is refused before its owner sees it (R177). -/
def serviceOnly (h : State → Answer) (s : State) : Answer :=
  if s.msv.state = .service then h s else refuse .notInService s

/-! ### Entering and leaving (R188) -/

/-- SERVICE_ENTER is taken in UNHOMED, STOPPED and HALTED with no fault cause present. -/
def enterAllowed (s : State) : Bool :=
  (s.msv.state == .unhomed || s.msv.state == .stopped || s.msv.state == .halted) && !causePresent s

/-- The SERVICE_ENTER request. -/
def enterRequest (s : State) : Answer :=
  if enterAllowed s then accept (event (enterState .service) s) else refuse .wrongState s

/-- Every channel force is set off (R37). -/
def forcesOff (s : State) : State := mapChannels (fun i c => timed i { c with force := false }) s

/-- SERVICE is left by the home condition. -/
def leaveService (s : State) : State := enterState (if homeCondition s then .stopped else .unhomed) (forcesOff s)

/-- The SERVICE_EXIT request: taken in SERVICE with no operation in flight. -/
def exitRequest (s : State) : Answer :=
  if s.msv.state = .service ∧ s.mot.service = none then accept (event leaveService s) else refuse .wrongState s

/-! ### Jogs (R190) -/

/-- Generator C is not idle: it serves an axis or runs its switch gap (R129). -/
def generatorBusy (a : Axis) (s : State) : Bool :=
  (a == .span || a == .rot) && (s.mot.cAxis.isSome || s.mot.cGap.isSome)

/-- A jog that starts a motion is refused with WRONG_STATE (R189, R190). -/
def jogRefused (a : Axis) (s : State) : Bool :=
  s.mot.service.isSome || (s.mot.axis a).state == .moving || (s.mot.axis a).state == .settling || generatorBusy a s

/-- A service motion takes the axis: its pending rates are adopted (R131), generator C is taken for SPAN or ROT. -/
def takeAxis (a : Axis) (d : Rates → Drive) (positive : Bool) (s : State) : State :=
  let r := (s.mot.axis a).adoptRates
  let t := setAxisRec a (r.take (d r.rates) positive) s
  if a = .span ∨ a = .rot then { t with mot := { t.mot with cAxis := some a } } else t

/-- A running jog starts. -/
def startJog (a : Axis) (positive : Bool) (s : State) : State :=
  let t := takeAxis a (fun r => .jog positive r.rs false) positive s
  { t with mot := { t.mot with service := some (.jog a false .none) } }

/-- JOG with RUN_POSITIVE or RUN_NEGATIVE. BAD_VALUE comes before WRONG_STATE (notes/assumptions/46.md). -/
def jogRunRequest (axis : Byte) (positive : Bool) (s : State) : Answer :=
  match axisOf axis with
  | none => refuse .badValue s
  | some a => if jogRefused a s then refuse .wrongState s else accept (startJog a positive s)

/-- The distance that JOG takes: clamped, and on a homed X, Y or SPAN axis so that the target lies within the soft limits. -/
def jogDistance (a : Axis) (w : Word32) (s : State) : Int :=
  let d := clampInt (-65535) 65535 w.toInt
  let r := s.mot.axis a
  match softLimit a with
  | some top => if r.homed then clampInt (-r.commanded) (top - r.commanded) d else d
  | none => d

/-- A counted jog starts; a distance of 0 starts no motion, and TEST_DONE is queued at once. -/
def startCounted (a : Axis) (d : Int) (s : State) : State :=
  if d = 0 then enqueue (.testDone (testDoneOf (.jog a true .none) .done none s)) s
  else
    let positive := decide (0 < d)
    let t := takeAxis a (fun r => .profile positive (tickProfile r d.natAbs)) positive s
    { t with mot := { t.mot with service := some (.jog a true .none) } }

/-- JOG with COUNTED: the reply echoes the distance taken. BAD_VALUE comes before WRONG_STATE (notes/assumptions/46.md). -/
def jogCountedRequest (axis : Byte) (w : Word32) (s : State) : Answer :=
  match axisOf axis with
  | none => refuse .badValue s
  | some a =>
    if jogRefused a s then refuse .wrongState s
    else (startCounted a (jogDistance a w s) s, .ok, .distance (jogDistance a w s))

/-- A running jog in flight ends with its tick. -/
def haltJog (s : State) : State :=
  match s.mot.service with
  | some (.jog a false _) => setAxisRec a (s.mot.axis a).stopJog s
  | _ => s

/-- JOG with HALT: answered OK whether or not a running jog is in flight. -/
def jogHaltRequest (axis : Byte) (s : State) : Answer :=
  match axisOf axis with
  | none => refuse .badValue s
  | some _ => accept (haltJog s)

/-! ### Forces (R191) -/

/-- FORCE_CHANNEL: the force that the action makes of the one held; the reply echoes the force and the output. -/
def forceRequest (channel : Byte) (f : Bool → Bool) (s : State) : Answer :=
  match channelOf channel with
  | none => refuse .badValue s
  | some i =>
    let t := setForce i (f s.stu.channels[i].force) s
    (t, .ok, .force t.stu.channels[i].force (channelOutput i t.stu.channels[i]))

/-! ### The dry revolution (R192) -/

/-- A dry revolution starts: a single revolution under R5. -/
def startDry (s : State) : State :=
  raiseTrip
    { s with msv := { s.msv with single := some { kind := .dry, travel := 0, dropped := false } }
             mot := { s.mot with service := some (.dry .none) } }

/-- The DRY_CYCLE request. -/
def dryRequest (s : State) : Answer :=
  if s.msv.atRest ∧ s.mot.service = none then accept (startDry s) else refuse .wrongState s

/-! ### The loop test (R193) -/

/-- The mode of a loop test: 0 INTERNAL, 1 EXTERNAL (R187). -/
def loopModeOf (b : Byte) : Option Bool := if b = 0 then some true else if b = 1 then some false else none

/-- LOOP_TEST is refused with WRONG_STATE. -/
def loopRefused (a : TableAxis) (intern : Bool) (s : State) : Bool :=
  let r := s.mot.axis (tableAxis a)
  s.mot.service.isSome || r.state == .moving || r.state == .settling || (!intern && r.state == .unhomed)

/-- A loop test starts its first move, with the axis's pending rates adopted and its positions saved. -/
def startLoop (a : TableAxis) (intern : Bool) (seed : Nat) (s : State) : State :=
  let r := (s.mot.axis (tableAxis a)).adoptRates
  loopMove a intern seed 0 0 r.commanded r.feedback (setAxisRec (tableAxis a) r s)

/-- A seed of 0 or above 32,767 is refused. -/
def seedBad (seed : Word16) : Bool := decide (seed.toNat = 0 ∨ 32767 < seed.toNat)

/-- The LOOP_TEST request. BAD_VALUE comes before WRONG_STATE (notes/assumptions/46.md). -/
def loopRequest (axis mode : Byte) (seed : Word16) (s : State) : Answer :=
  match tableAxisOf axis, loopModeOf mode with
  | some a, some intern =>
    if seedBad seed then refuse .badValue s
    else if loopRefused a intern s then refuse .wrongState s
    else accept (startLoop a intern seed.toNat s)
  | _, _ => refuse .badValue s

end Sys2Proof.Machine
end

