-- ==== Sys2Proof/Machine/Settings.lean ====
section
/-! DEFINITION. The requests that set the machine profile: SET_LANDMARKS (R33), SET_CHANNEL (R42), SET_WINDOW (R49, R52, R61),
SET_AXIS (R130, R131), SET_GEOMETRY (R135); and those of the link: REPORT_MASK (R182), SET_BAUD (R173), IDENTIFY (R183),
STATUS (R184). -/

namespace Sys2Proof.Machine

/-! ### Landmarks (R33) -/

/-- SET_LANDMARKS is refused with WRONG_STATE. -/
def landmarksHeld (p : LandmarkProfile) (s : State) : Bool :=
  s.msv.state == .homing || inRun s || (s.msv.state == .stopped && p.offset != s.store.landmarks.offset)

/-- A new index offset: the angle is UNSYNCHRONIZED, the travel count 2,048, every channel switched by angle or edge off. -/
def loseSync (s : State) : State :=
  mapChannels (fun i c => c.quiet i)
    { s with stu := { s.stu with synced := false, travel := Config.qualifiedTravel } }

/-- SET_LANDMARKS taken: the new profile, the pointer above the current angle, a new offset. -/
def landmarksTaken (p : LandmarkProfile) (s : State) : State :=
  let t := { s with store := { s.store with landmarks := p }, stu := { s.stu with pointer := pointerAbove p s.stu.angle } }
  if p.offset = s.store.landmarks.offset then t else loseSync t

/-- The SET_LANDMARKS request (R33). BAD_VALUE comes before WRONG_STATE (notes/assumptions/46.md). -/
def landmarksRequest (f : LandmarkFields) (s : State) : Answer :=
  match landmarksOf f with
  | none => refuse .badValue s
  | some p => if landmarksHeld p s then refuse .wrongState s else (landmarksTaken p s, .ok, .landmarks p)

/-! ### Channels (R42) -/

/-- Settings go to the pending copy of a channel; a second write replaces it. -/
def stageChannel (i : ChannelNo) (c : ChannelSettings) (s : State) : State :=
  setChannelRec i { s.stu.channels[i] with staged := some c } s

/-- Settings of a channel adopted at once, with what the overrun guard makes of the new limit (R43). -/
def adoptChannelNow (i : ChannelNo) (c : ChannelSettings) (s : State) : State :=
  guardChannel i (setChannelRec i (({ s.stu.channels[i] with staged := some c } : Channel).adopt i) s)

/-- The SET_CHANNEL request. -/
def channelRequest (f : ChannelFields) (s : State) : Answer :=
  match channelOf f.channel, channelSettingsOf f with
  | some i, some c =>
    if inRun s then (stageChannel i c s, .ok, .channel i c true)
    else (event (adoptChannelNow i c) s, .ok, .channel i c false)
  | _, _ => refuse .badValue s

/-! ### Windows (R49, R52, R61) -/

/-- A role that one window at most may hold (R51). -/
def uniqueRole : WindowRole → Bool
  | .unused => false
  | .guard => false
  | .watch => false
  | _ => true

/-- A window holds a role in its active copy or in its pending copy (R52). -/
def Window.holdsRole (r : WindowRole) (w : Window) : Bool :=
  w.active.role == r || (match w.staged with
    | some st => st.role == r
    | none => false)

/-- A unique role is already held by another window (R52). -/
def roleTaken (n : Fin 12) (r : WindowRole) (s : State) : Bool :=
  uniqueRole r && allWindows.any fun m => m != n && s.wmu.windows[m].holdsRole r

/-- The settings of a window go to its pending copy, or are adopted at once (R52). -/
def setWindow (n : Fin 12) (st : WindowSettings) (s : State) : State :=
  let w : Window := { s.wmu.windows[n] with staged := some st }
  setWindowRec n (if inRun s then w else w.adopt) s

/-- The window form of SET_WINDOW. -/
def windowRequest (f : WindowFields) (s : State) : Answer :=
  match windowOf f.window, windowSettingsOf f with
  | some n, some st =>
    if roleTaken n st.role s then refuse .badValue s else (setWindow n st s, .ok, .window n.val st (inRun s))
  | _, _ => refuse .badValue s

/-- The input form of SET_WINDOW (R49). -/
def windowInputRequest (input count : Byte) (s : State) : Answer :=
  match inputOf input with
  | none => refuse .badValue s
  | some i =>
    let c := clamp 1 15 count.toNat
    ({ s with wmu := { s.wmu with filterCounts := s.wmu.filterCounts.set i.val c } }, .ok, .windowInput i c)

/-- The skew form of SET_WINDOW (R61). -/
def windowSkewRequest (limit : Word16) (s : State) : Answer :=
  let l := clamp 0 1023 limit.toNat
  ({ s with wmu := { s.wmu with skewLimit := l } }, .ok, .number l)

/-! ### Axes (R130, R135) -/

/-- The record of an axis with the settings of SET_AXIS: the rates to the pending copy (R131), the rest at once.
A pulse that has begun goes on at the pin of a new style (notes/assumptions/62.md). -/
def AxisRec.withSettings (a : Axis) (f : AxisFields) (style : OutputStyle) (r : AxisRec) : AxisRec :=
  { r with staged := ratesOf f, stagedFlag := true, style := style, homeOffset := homeOffsetOf a f.homeOffset
           searchLimit := clamp 1 65535 f.searchLimit.toNat, following := clamp 1 255 f.following.toNat }

/-- The style, the home offset and the search limit of two records differ. -/
def axisFixedDiffers (r q : AxisRec) : Bool :=
  r.style != q.style || r.homeOffset != q.homeOffset || r.searchLimit != q.searchLimit

/-- The axis, or the machine state, holds those three settings (R130). An UNHOMED axis that a service motion moves does not
(notes/assumptions/52.md). -/
def axisHeld (r : AxisRec) (s : State) : Bool :=
  r.state == .moving || r.state == .settling || r.state == .homing || s.msv.state == .homing || inRun s

/-- The SET_AXIS request (R130). BAD_VALUE comes before WRONG_STATE, and the home offset and the search limit are compared with
the values held after clamping (notes/assumptions/46.md). -/
def axisRequest (f : AxisFields) (s : State) : Answer :=
  match axisOf f.axis, styleOf f.style with
  | some a, some style =>
    let r := s.mot.axis a
    let q := r.withSettings a f style
    if axisFixedDiffers r q && axisHeld r s then refuse .wrongState s else (setAxisRec a q s, .ok, .axis a q)
  | _, _ => refuse .badValue s

/-- The SET_GEOMETRY request (R135). -/
def geometryRequest (f : GeometryFields) (s : State) : Answer :=
  let hx := clampInt 0 45000 (Int.ofNat f.hx.toNat)
  let hy := clampInt 0 36000 (Int.ofNat f.hy.toNat)
  let settle := clamp 0 50 f.settle.toNat
  let margin := clamp 0 20 f.margin.toNat
  ({ s with store := { s.store with hx := hx, hy := hy, settleTime := settle, fitMargin := margin } }, .ok,
    .geometry hx hy settle margin)

/-! ### The link's own requests -/

/-- The SET_BAUD request (R173): the new speed waits for the end of its reply. -/
def baudRequest (code : Byte) (s : State) : Answer :=
  if 3 < code.toNat then refuse .badValue s
  else ({ s with lnk := { s.lnk with baudNext := some code.toNat } }, .ok, .byte code)

/-- The REPORT_MASK request (R182). -/
def maskRequest (mask : Byte) (s : State) : Answer := ({ s with lnk := { s.lnk with mask := mask } }, .ok, .byte mask)

/-- The IDENTIFY request (R183). -/
def identifyRequest (s : State) : Answer :=
  (s, .ok, .identity Config.partName 1 Config.stepMax Config.tapeMax 48 12 9 Config.redoMax Config.reportQueueMax 240 s.lnk.baud)

/-- What STATUS shows of an axis (R126). -/
def axisView (a : Axis) (s : State) : AxisView :=
  let r := s.mot.axis a
  { state := r.state, commanded := r.commanded
    feedback := if a = .x ∨ a = .y then some r.feedback else none }

/-- The snapshot of STATUS (R184). -/
def snapshot (s : State) : Snapshot :=
  { view := stateView s, run := s.msv.run, panel := s.pgs.panel, panelNumber := s.pgs.number
    boardChanged := s.pgs.boardChanged, boardAway := s.pgs.boardAway, counts := itemCounts s, cycle := s.stu.cycle
    angle := s.stu.angle, synced := s.stu.synced, period := s.stu.period, periodValid := s.stu.periodValid
    axes := allAxes.map fun a => axisView a s
    inputs := s.wmu.inputs.toList.map (·.accepted)
    homeInputs := allAxes.map fun a => (s.mot.axis a).homeInput.accepted
    limit := s.mot.limit.accepted, stopLine := s.fau.stopLine.accepted, locked := anyLocked s
    green := lampGreen s, amber := lampAmber s, red := lampRed s, horn := s.fau.horn
    warnPending := s.fau.warnPending, warnCount := s.fau.warnCount, captureLocked := s.fau.capture.locked }

/-- The STATUS request (R184). -/
def statusRequest (s : State) : Answer := (s, .ok, .snapshot (snapshot s))

end Sys2Proof.Machine
end

