-- ==== Sys2Proof/Machine/Program.lean ====
section
/-! DEFINITION. The requests of the Program Store: the step table and its cursor (R67 to R70), the span table (R72), panel
setup (R73, R74), ITEM_READ (R78), PANEL_RELEASE (R83). -/

namespace Sys2Proof.Machine

/-- The cursor after a write that began at it and wrote n records (R68, R69, R111). -/
def Cursor.wrote (c : Cursor) (n : Nat) : Cursor :=
  match c.mode with
  | .hold => c
  | _ => { c with position := c.position + n }

/-- The cursor after a read of n records (R68, R111). -/
def Cursor.hasRead (c : Cursor) (n : Nat) : Cursor :=
  match c.mode with
  | .all => { c with position := c.position + n }
  | _ => c

/-- The cursor that a request sets: a position up to the last of the table, and a mode (R68, R111). -/
def cursorOf (last : Nat) (position : Word16) (mode : Byte) : Option Cursor :=
  match advanceOf mode with
  | some m => if position.toNat ≤ last then some { position := position.toNat, mode := m } else none
  | none => none

/-! ### The step table -/

/-- The STEP_CURSOR request (R68). -/
def stepCursorRequest (position : Word16) (mode : Byte) (s : State) : Answer :=
  match cursorOf 1023 position mode with
  | none => refuse .badValue s
  | some c => ({ s with store := { s.store with stepCursor := c } }, .ok, .cursor c)

/-- An item in flight: CHAINED, REDO or HEAD (R69). -/
def inFlight : ItemState → Bool
  | .chained => true
  | .redo => true
  | .head => true
  | _ => false

/-- A work item of the step at a position is in flight (R69). -/
def stepInFlight (p : Nat) (s : State) : Bool :=
  (workList s).any fun i => i.step.val == p && inFlight (itemRec i s).state

/-- Writing one record of the step table. -/
def writeStep (p : Nat) (r : StepRecord) (s : State) : State :=
  { s with store := { s.store with steps := Table.write .reset s.store.steps p r } }

/-- Writing records one after another, up to the first refused: the state, the count written, the status (R69). Of several grounds
TABLE_END comes first, then BAD_VALUE, then WRONG_STATE (notes/assumptions/46.md). -/
def writeSteps : Nat → List StepFields → State → State × Nat × Status
  | _, [], s => (s, 0, .ok)
  | p, f :: rest, s =>
    if Config.stepMax ≤ p then (s, 0, .tableEnd)
    else
      match stepRecordOf f with
      | none => (s, 0, .badValue)
      | some r =>
        if stepInFlight p s then (s, 0, .wrongState)
        else
          let (t, n, st) := writeSteps (p + 1) rest (writeStep p r s)
          (t, n + 1, st)

/-- The judgement of starvation after a STEP_WRITE: STARVED is added or removed (R104). -/
def rejudgeStarved (s : State) : State :=
  if judgesStarvation s then
    let hungry := starved s
    setDwell (fun d => { d with starved := hungry }) s
  else s

/-- The judgement that follows the records written, if any were. -/
def afterSteps (n : Nat) (s : State) : State := if n = 0 then s else rejudgeStarved s

/-- A list of 1 to 32 records (R69, R111). -/
def listFits {α : Type} (l : List α) : Bool := decide (1 ≤ l.length ∧ l.length ≤ 32)

/-- The STEP_WRITE request (R69). The count of its reply takes two bytes (notes/assumptions/36.md). -/
def stepWriteRequest (records : List StepFields) (s : State) : Answer :=
  if listFits records then
    let (t, n, st) := writeSteps s.store.stepCursor.position records s
    let t := { t with store := { t.store with stepCursor := s.store.stepCursor.wrote n } }
    (eventRun (afterSteps n) t, st, .number n)
  else refuse .badLength s

/-- How many of count records there are from a position up to the last (R70, R78, R112). -/
def readable (position count limit : Nat) : Nat := min count (limit - position)

/-- The status of a read that the end of the table may have cut short (R70, R112). -/
def readStatus (n count : Nat) : Status := if n < count then .tableEnd else .ok

/-- The records that STEP_READ returns, each with its absent flag (R70). -/
def stepRecords (first n : Nat) (s : State) : List (StepRecord × Bool) :=
  (List.range n).map fun k => (stepAt (first + k) s, decide (s.store.stepCount ≤ first + k))

/-- The STEP_READ request (R70). -/
def stepReadRequest (count : Byte) (s : State) : Answer :=
  match readCountOf count with
  | none => refuse .badValue s
  | some c =>
    let first := s.store.stepCursor.position
    let n := readable first c Config.stepMax
    ({ s with store := { s.store with stepCursor := s.store.stepCursor.hasRead n } }, readStatus n c,
      .stepRecords first (stepRecords first n s))

/-- A panel is open, or the machine state is RUNNING or STOPPING (R67). -/
def stepCountHeld (s : State) : Bool := s.pgs.panel.isSome || inRun s

/-- The STEP_COUNT request (R67): the item state table is rebuilt, every record PENDING (R74). BAD_VALUE comes before WRONG_STATE
(notes/assumptions/46.md). -/
def stepCountRequest (count : Word16) (s : State) : Answer :=
  if Config.stepMax < count.toNat then refuse .badValue s
  else if stepCountHeld s then refuse .wrongState s
  else
    ({ s with store := { s.store with stepCount := count.toNat }, pgs := { s.pgs with items := [] } }, .ok,
      .number count.toNat)

/-! ### The span table -/

/-- The SET_SPAN request (R72). -/
def spanRequest (code : Byte) (position : Word16) (s : State) : Answer :=
  if 15 < code.toNat then refuse .badValue s
  else
    let p := clamp 0 3000 position.toNat
    ({ s with store := { s.store with spans := Table.write spanReset s.store.spans code.toNat p } }, .ok,
      .span code.toNat p)

/-! ### Panel setup -/

/-- The PANEL_SET request (R73, R74): staged while a panel is open, otherwise active at once with the item state table rebuilt.
BAD_VALUE comes before WRONG_STATE, which compares the maximum tries as clamped (notes/assumptions/46.md). -/
def panelSetRequest (f : PanelFields) (s : State) : Answer :=
  match panelSetupOf f with
  | none => refuse .badValue s
  | some p =>
    if s.pgs.panel.isSome then
      if p.maxTries = s.pgs.active.maxTries then
        ({ s with pgs := { s.pgs with staged := some p } }, .ok, .panel p true)
      else refuse .wrongState s
    else ({ s with pgs := { s.pgs with active := p, staged := none, items := [] } }, .ok, .panel p false)

/-! ### Items -/

/-- The image of ITEM_READ: 1 to 4 (R78). -/
def imageNoOf (b : Byte) : Option (Fin 4) := if h : 1 ≤ b.toNat ∧ b.toNat ≤ 4 then some ⟨b.toNat - 1, by omega⟩ else none

/-- The records that ITEM_READ returns: step, image, record, absent flag. An absent record reads as an unlisted one
(notes/assumptions/45.md). -/
def itemRecords (first n : Nat) (image : Fin 4) (s : State) : List (Nat × Nat × ItemRecord × Bool) :=
  (List.range n).map fun k =>
    let i : Item := { step := Fin.ofNat 1024 (first + k), image := image }
    (first + k, image.val + 1, itemRec i s, !hasItem i s)

/-- The ITEM_READ request (R78). -/
def itemReadRequest (position : Word16) (image count : Byte) (s : State) : Answer :=
  match imageNoOf image, readCountOf count with
  | some im, some c =>
    if 1023 < position.toNat then refuse .badValue s
    else (s, .ok, .items (itemRecords position.toNat (readable position.toNat c Config.stepMax) im s))
  | _, _ => refuse .badValue s

/-! ### PANEL_RELEASE (R83, R106) -/

/-- Every unfinished item of the panel becomes ABANDONED with reason RELEASED, its tries kept. -/
def releaseItems (s : State) : State :=
  (workList s).foldl
    (fun t i => if unfinishedIn t.pgs.panel (itemRec i t).state then abandonItem i .released t else t) s

/-- The item held in the head goes: the content becomes UNKNOWN and the item of record is cleared (R64). -/
def releaseHead (s : State) : State :=
  if (headItem s).isSome then setHead { s.wmu.head with content := .unknown, record := none } s else s

/-- PANEL_RELEASE taken (R83). -/
def releaseTaken (s : State) : State := panelEnd .released (releaseHead (dropChain (releaseItems s)))

/-- The PANEL_RELEASE request: taken in STOPPED with a panel open. -/
def releaseRequest (s : State) : Answer :=
  if s.msv.state = .stopped ∧ s.pgs.panel.isSome then accept (event releaseTaken s) else refuse .wrongState s

end Sys2Proof.Machine
end

