-- ==== Sys2Proof/Machine/Stations.lean ====
section
/-! DEFINITION. The requests of the Sequencer Controller: the station map and thresholds (R86, R102), the dispenser table (R101,
R103), CHAIN_READ and REDO_READ (R108). -/

namespace Sys2Proof.Machine

/-! ### The station map -/

/-- The 48 dispenser numbers. -/
def allDispensers : List (Fin 48) := List.finRange 48

/-- A dispenser that keeps its position reserved: its state is not DISABLED (R86, R101). -/
def Dispenser.reserved (d : Dispenser) : Bool := d.state != .disabled

/-- No dispenser other than n that is not DISABLED stands at a position (R86, R101). -/
def positionFree (n : Fin 48) (p : Nat) (s : State) : Bool :=
  allDispensers.all fun m => m == n || !(s.sqc.dispensers[m].reserved && s.sqc.dispensers[m].position == p)

/-- A position at which a dispenser that is not DISABLED may stand: 1 to V − 1 (R86). -/
def positionFits (v p : Nat) : Bool := decide (1 ≤ p ∧ p < v)

/-- The conditions of the station map on Q, V and R and on the dispensers as they stand (R86). -/
def stationsFit (q v r : Nat) (s : State) : Bool :=
  decide (8 ≤ q ∧ q ≤ 96 ∧ 2 ≤ v ∧ v < r ∧ r < q) &&
    allDispensers.all fun n => !s.sqc.dispensers[n].reserved ||
      (positionFits v s.sqc.dispensers[n].position && positionFree n s.sqc.dispensers[n].position s)

/-- The map form of SET_STATIONS (R86): the chain map is rebuilt as UNKNOWN. BAD_VALUE
comes before WRONG_STATE (notes/assumptions/46.md). -/
def stationsRequest (q v r : Byte) (s : State) : Answer :=
  if stationsFit q.toNat v.toNat r.toNat s then
    if inRun s then refuse .wrongState s
    else
      let t := forgetChain q.toNat s
      ({ t with sqc := { t.sqc with q := q.toNat, v := v.toNat, r := r.toNat } }, .ok,
        .stations q.toNat v.toNat r.toNat)
  else refuse .badValue s

/-- The threshold form of SET_STATIONS (R102). -/
def thresholdRequest (depletion suspect : Byte) (s : State) : Answer :=
  let d := clamp 1 8 depletion.toNat
  let u := clamp 2 8 suspect.toNat
  ({ s with store := { s.store with depletion := d, suspect := u } }, .ok, .thresholds d u)

/-! ### The dispenser table -/

/-- The actions of SET_DISPENSER, in the order of R101. -/
inductive DispenserAction where
  | keep | enable | disable
deriving DecidableEq, Repr

/-- The state that an action leaves (R101). -/
def DispenserAction.result : DispenserAction → DispenserState → DispenserState
  | .keep, st => st
  | .enable, _ => .enabled
  | .disable, _ => .disabled

/-- The dispenser would break the station map: it would not be DISABLED, and its position is out of 1 to V − 1 or held by
another (R101). A position outside 1 to 96 is refused for every state (notes/assumptions/21.md). -/
def dispenserBad (n : Fin 48) (p : Nat) (after : DispenserState) (s : State) : Bool :=
  !decide (1 ≤ p ∧ p ≤ 96) || (after != .disabled && !(positionFits s.sqc.v p && positionFree n p s))

/-- A change of a dispenser's state: made ENABLED it loses its history and failure count and removes STARVED (R101, R104);
the DISPENSER report (R103). -/
def changeDispenser (n : Fin 48) (st : DispenserState) (cause : DispenserCause) (s : State) : State :=
  let d := s.sqc.dispensers[n]
  if st = .enabled then
    setDwell (fun w => { w with starved := false })
      (dispenserReport n cause (setDispenserRec n { d with state := st, history := [], failures := 0 } s))
  else dispenserReport n cause (setDispenserRec n { d with state := st } s)

/-- The action of SET_DISPENSER, where it changes the state (R101). -/
def dispenserAct (n : Fin 48) (act : DispenserAction) (s : State) : State :=
  let st := s.sqc.dispensers[n].state
  if act.result st = st then s
  else
    match act with
    | .keep => s
    | .enable => changeDispenser n .enabled .enable s
    | .disable => changeDispenser n .disabled .disable s

/-- The position and the class of a dispenser are set; a change of position rebuilds the chain map (R101). -/
def placeDispenser (n : Fin 48) (p : Nat) (c : DispenserClass) (s : State) : State :=
  let d := s.sqc.dispensers[n]
  let t := setDispenserRec n { d with position := p, cls := c } s
  if d.position = p then t else forgetChain s.sqc.q t

/-- SET_DISPENSER with one of its actions (R101). BAD_VALUE comes before WRONG_STATE (notes/assumptions/46.md). -/
def dispenserRequest (act : DispenserAction) (number position cls : Byte) (s : State) : Answer :=
  match dispenserOf number, dispenserClassOf cls with
  | some n, some c =>
    let d := s.sqc.dispensers[n]
    if dispenserBad n position.toNat (act.result d.state) s then refuse .badValue s
    else if inRun s && (d.position != position.toNat || d.cls != c) then refuse .wrongState s
    else
      let t := eventRun (fun t => dispenserAct n act (placeDispenser n position.toNat c t)) s
      (t, .ok, .dispenser n.val t.sqc.dispensers[n])
  | _, _ => refuse .badValue s

/-- A dispenser made ready (R103). -/
def readyTaken (n : Fin 48) (s : State) : State :=
  let d := s.sqc.dispensers[n]
  if d.state = .enabled then setDispenserRec n { d with history := [], failures := 0 } s
  else changeDispenser n .enabled .ready s

/-- The DISPENSER_READY request (R103). -/
def readyRequest (number : Byte) (s : State) : Answer :=
  match dispenserOf number with
  | none => refuse .badValue s
  | some n =>
    if s.sqc.dispensers[n].state = .disabled then refuse .wrongState s
    else accept (eventRun (readyTaken n) s)

/-! ### Reading (R108) -/

/-- The slots that CHAIN_READ returns, with their positions. -/
def slotRecords (first n : Nat) (s : State) : List (Nat × Slot) :=
  (List.range n).map fun k => (first + k, slotAt (first + k) s)

/-- The CHAIN_READ request. -/
def chainReadRequest (first count : Byte) (s : State) : Answer :=
  match readCountOf count with
  | none => refuse .badValue s
  | some c =>
    if 1 ≤ first.toNat ∧ first.toNat ≤ s.sqc.q then
      (s, .ok, .slots (slotRecords first.toNat (readable first.toNat c (s.sqc.q + 1)) s))
    else refuse .badValue s

/-- The REDO_READ request. -/
def redoReadRequest (s : State) : Answer :=
  (s, .ok, .redo (s.sqc.redo.map fun i => (i, (itemRec i s).tries)))

end Sys2Proof.Machine
end

