-- ==== Sys2Proof/Machine/TapeRequests.lean ====
section
/-! DEFINITION. The requests of the Tape Map Unit: the map cursor and the tape position (R111, R113), TAPEMAP_WRITE (R111),
TAPEMAP_READ and TAPEMAP_CLEAR (R112). -/

namespace Sys2Proof.Machine

/-- The map form of TAPEMAP_CURSOR (R111). -/
def mapCursorRequest (position : Word16) (mode : Byte) (s : State) : Answer :=
  match cursorOf 4095 position mode with
  | none => refuse .badValue s
  | some c => ({ s with tmu := { s.tmu with cursor := c } }, .ok, .cursor c)

/-- The tape position is set: the jammed flag and the map-end flag are cleared, and the reports of a changed reel state and
of the position are queued, in the order of R123 (R113, R121). -/
def positionTaken (p : Nat) (s : State) : State :=
  let t := { s with tmu := { s.tmu with position := p, jammed := false, mapEnd := false } }
  tapeReport .positionSet (some p) (reportReel (reelState s) t)

/-- The tape form of TAPEMAP_CURSOR (R113). BAD_VALUE comes before WRONG_STATE (notes/assumptions/46.md). -/
def tapePositionRequest (position : Word16) (s : State) : Answer :=
  if s.tmu.mapLength < position.toNat then refuse .badValue s
  else if inRun s then refuse .wrongState s
  else
    let t := positionTaken position.toNat s
    (t, .ok, .tapePosition t.tmu.position (reelState t))

/-- Writing one entry of the tape map; a write at or beyond the map length makes it the position + 1 (R110). -/
def writeEntry (p : Nat) (e : TapeEntry) (s : State) : State :=
  { s with tmu := { s.tmu with map := Table.write .blank s.tmu.map p e, mapLength := max s.tmu.mapLength (p + 1) } }

/-- Writing entries one after another, up to the first refused: the state, the count written, the status (R111). TABLE_END comes
before BAD_VALUE (notes/assumptions/46.md). -/
def writeEntries : Nat → List TapeFields → State → State × Nat × Status
  | _, [], s => (s, 0, .ok)
  | p, f :: rest, s =>
    if Config.tapeMax ≤ p then (s, 0, .tableEnd)
    else
      match tapeEntryOf f with
      | none => (s, 0, .badValue)
      | some e =>
        let (t, n, st) := writeEntries (p + 1) rest (writeEntry p e s)
        (t, n + 1, st)

/-- The TAPEMAP_WRITE request (R111). -/
def mapWriteRequest (entries : List TapeFields) (s : State) : Answer :=
  if listFits entries then
    let (t, n, st) := writeEntries s.tmu.cursor.position entries s
    ({ t with tmu := { t.tmu with cursor := s.tmu.cursor.wrote n } }, st, .tapeWritten n t.tmu.mapLength)
  else refuse .badLength s

/-- The entries that TAPEMAP_READ returns: position, entry, absent flag (R112). -/
def entryRecords (first n : Nat) (s : State) : List (Nat × TapeEntry × Bool) :=
  (List.range n).map fun k => (first + k, entryAt (first + k) s, decide (s.tmu.mapLength ≤ first + k))

/-- The TAPEMAP_READ request (R112). -/
def mapReadRequest (count : Byte) (s : State) : Answer :=
  match readCountOf count with
  | none => refuse .badValue s
  | some c =>
    let first := s.tmu.cursor.position
    let n := readable first c Config.tapeMax
    ({ s with tmu := { s.tmu with cursor := s.tmu.cursor.hasRead n } }, readStatus n c,
      .tapeEntries s.tmu.mapLength s.tmu.position (reelState s) (entryRecords first n s))

/-- A tape run is active: TAPEMAP_CLEAR is refused (R112). -/
def tapeRunActive (s : State) : Bool :=
  inRun s && (runMode s == some .tapeOut || runMode s == some .tapeIn)

/-- The TAPEMAP_CLEAR request (R112). -/
def mapClearRequest (s : State) : Answer :=
  if tapeRunActive s then refuse .wrongState s
  else accept (tapeReport .cleared none { s with tmu := { s.tmu with map := [], mapLength := 0 } })

end Sys2Proof.Machine
end

