-- ==== Sys2Proof/Machine/Link.lean ====
section
/-! DEFINITION. The Serial Link Interface: the request in service and the one that waits (R176, R177), the transmitter (R180,
R181), the receive framer (R175), the speed switch (R173). -/

namespace Sys2Proof.Machine

/-! ### Due work of the line -/

/-- The framer returns to HUNT with no bytes held. -/
def framerHunt (s : State) : State := { s with lnk := { s.lnk with framer := .hunt, heldBytes := [], gapTimer := none } }

/-- The new speed takes effect at the end of the SET_BAUD reply, and a frame partly received is discarded (R173). -/
def baudSwitch (s : State) : State :=
  match s.lnk.baudDue with
  | some b => framerHunt { s with lnk := { s.lnk with baud := b, baudDue := none } }
  | none => s

/-- With the reply sent, the waiting request goes into service and is answered BUSY (R176). -/
def busyReply (s : State) : State :=
  match s.lnk.inService, s.lnk.waiting with
  | none, some k =>
    { s with lnk := { s.lnk with inService := some k, waiting := none
                                 reply := some { kind := k + 128, status := .busy, body := .empty } } }
  | _, _ => s

/-- What the end of a reply has left to do, before any later event of the link. -/
def linkDue (s : State) : State := busyReply (baudSwitch s)

/-! ### Service of a request -/

/-- A completed request is taken (R176): into service and answered, or waiting, or dropped. -/
def serve (kind : Byte) (h : State → Answer) (s : State) : State :=
  match s.lnk.inService with
  | none =>
    let (t, st, body) := h { s with lnk := { s.lnk with inService := some kind } }
    { t with lnk := { t.lnk with reply := some { kind := kind + 128, status := st, body := body } } }
  | some _ =>
    match s.lnk.waiting with
    | none => { s with lnk := { s.lnk with waiting := some kind } }
    | some _ => s

/-- A request whose frame completes: the framer returns to HUNT, and the request is taken. -/
def request (kind : Byte) (h : State → Answer) (s : State) : State := serve kind h (framerHunt (linkDue s))

/-- A request to its owning block. -/
def answerRequest (i : Instr) (s : State) : Answer :=
  match i with
  | .identify => identifyRequest s
  | .status => statusRequest s
  | .restart => restartRequest s
  | .setBaud c => baudRequest c s
  | .reportMask m => maskRequest m s
  | .setLandmarks f => landmarksRequest f s
  | .setChannel f => channelRequest f s
  | .setWindowWindow f => windowRequest f s
  | .setWindowInput i c => windowInputRequest i c s
  | .setWindowSkew l => windowSkewRequest l s
  | .setAxis f => axisRequest f s
  | .setStationsMap q v r => stationsRequest q v r s
  | .setStationsThreshold d u => thresholdRequest d u s
  | .setDispenserKeep n p c => dispenserRequest .keep n p c s
  | .setDispenserEnable n p c => dispenserRequest .enable n p c s
  | .setDispenserDisable n p c => dispenserRequest .disable n p c s
  | .setSpan c p => spanRequest c p s
  | .setGeometry f => geometryRequest f s
  | .stepCursor p m => stepCursorRequest p m s
  | .stepWrite l => stepWriteRequest l s
  | .stepRead c => stepReadRequest c s
  | .stepCount c => stepCountRequest c s
  | .panelSet f => panelSetRequest f s
  | .itemRead p i c => itemReadRequest p i c s
  | .tapemapCursorMap p m => mapCursorRequest p m s
  | .tapemapCursorTape p => tapePositionRequest p s
  | .tapemapWrite l => mapWriteRequest l s
  | .tapemapRead c => mapReadRequest c s
  | .tapemapClear => mapClearRequest s
  | .home => homeRequest s
  | .run m n c => runRequest m n c s
  | .stop => stopRequest s
  | .clearFault => clearRequest s
  | .silence => silenceRequest s
  | .ackWarnings => ackRequest s
  | .dispenserReady n => readyRequest n s
  | .panelRelease => releaseRequest s
  | .chainRead p c => chainReadRequest p c s
  | .redoRead => redoReadRequest s
  | .captureRead => captureRequest s
  | .serviceEnter => enterRequest s
  | .serviceExit => exitRequest s
  | .jogRunPositive a => serviceOnly (jogRunRequest a true) s
  | .jogRunNegative a => serviceOnly (jogRunRequest a false) s
  | .jogCounted a d => serviceOnly (jogCountedRequest a d) s
  | .jogHalt a => serviceOnly (jogHaltRequest a) s
  | .forceChannelSet c => serviceOnly (forceRequest c fun _ => true) s
  | .forceChannelClear c => serviceOnly (forceRequest c fun _ => false) s
  | .forceChannelToggle c => serviceOnly (forceRequest c fun b => !b) s
  | .loopTest a m d => serviceOnly (loopRequest a m d) s
  | .dryCycle => serviceOnly dryRequest s
  | _ => refuse .badKind s

/-- The checks of a request in service, in the order of R177, and its owner's answer. -/
def checkRequest (kind : Nat) (payload : List Byte) (s : State) : Answer :=
  if !kindAssigned kind then refuse .badKind s
  else if serviceKind kind && s.msv.state != .service then refuse .notInService s
  else
    match parseRequest kind payload with
    | .request i => answerRequest i s
    | .badKind => refuse .badKind s
    | .badLength => refuse .badLength s
    | .badValue => refuse .badValue s

/-- A request of a kind with no assignment, or of a service kind outside SERVICE (R177): the first check comes first
(notes/assumptions/17.md). -/
def unassigned (kind : Byte) (s : State) : Answer :=
  if kindAssigned kind.toNat then refuse .notInService s else refuse .badKind s

/-- A kind from 1 to 63 is a request (R175). -/
def requestKind (kind : Byte) : Bool := decide (1 ≤ kind.toNat ∧ kind.toNat ≤ 63)

/-- The unassigned kinds, and the service kinds outside SERVICE. -/
def unassignedHere (kind : Byte) (s : State) : Bool :=
  requestKind kind && (!kindAssigned kind.toNat || (serviceKind kind.toNat && s.msv.state != .service))

/-! ### The transmitter (R180, R181) -/

/-- A reply that has been formed is sent, and its request is no longer in service (R176, R180). -/
def replySend (s : State) : State :=
  match s.lnk.reply with
  | some r =>
    { s with lnk := { s.lnk with line := some (.reply r), reply := none, inService := none, baudDue := s.lnk.baudNext
                                 baudNext := none } }
  | none => s

/-- With no reply waiting, the oldest report is sent with the overflow flag, which is cleared (R180, R181). -/
def reportSend (s : State) : State :=
  match s.lnk.reply, s.lnk.queue with
  | none, r :: rest =>
    { s with lnk := { s.lnk with line := some (.report r s.lnk.overflow), queue := rest, overflow := false } }
  | _, _ => s

/-! ### The receive framer (R175) -/

/-- A frame of good sum: a request of its kind, or discarded without a rescan for a kind outside 1 to 63. -/
def completeFrame (bytes : List Byte) (s : State) : State :=
  match bytes with
  | _ :: kind :: payload => if requestKind kind then serve kind (checkRequest kind.toNat payload) s else s
  | _ => s

/-- A byte held in the frame in progress, with the state that follows it. -/
def hold (f : FramerState) (b : Byte) (s : State) : State :=
  { s with lnk := { s.lnk with framer := f, heldBytes := s.lnk.heldBytes ++ [b] } }

/-- A good LEN: 1 to 241 (R174). -/
def lenGood (b : Byte) : Bool := decide (1 ≤ b.toNat ∧ b.toNat ≤ 241)

/-- The sum of LEN, KIND, payload and CHECK is 0 modulo 256 (R174). -/
def sumGood (bytes : List Byte) : Bool := sumBytes bytes == 0

/-- The framer takes bytes one after another; a discarded frame gives its held bytes back to be taken again from HUNT. The
first argument bounds the work. -/
def feed : Nat → List Byte → State → State
  | 0, _, s => s
  | _ + 1, [], s => s
  | n + 1, b :: rest, s =>
    let held := s.lnk.heldBytes
    match s.lnk.framer with
    | .hunt =>
      if b = syncByte then feed n rest { s with lnk := { s.lnk with framer := .len, heldBytes := [] } } else feed n rest s
    | .len =>
      if lenGood b then feed n rest (hold (.body b.toNat) b s) else feed n (held ++ b :: rest) (framerHunt s)
    | .body l => feed n rest (hold (if held.length = l then .check l else .body l) b s)
    | .check _ =>
      if sumGood (held ++ [b]) then feed n rest (completeFrame held (framerHunt s))
      else feed n (held ++ b :: rest) (framerHunt s)

/-- Enough work for the bytes held and n more: each discard loses the SYNC of its frame, and a run of bytes is taken again
at most once for each byte of it. -/
def feedWork (n : Nat) (s : State) : Nat := (s.lnk.heldBytes.length + n + 1) * (s.lnk.heldBytes.length + n + 2)

/-- The gap timer runs in LEN, BODY and CHECK from the end of each byte (R175). -/
def startGap (s : State) : State :=
  { s with lnk := { s.lnk with gapTimer := if s.lnk.framer = .hunt then none else some 0 } }

/-- A received byte (R175). -/
def receive (b : Byte) (s : State) : State := startGap (feed (feedWork 1 s) [b] s)

/-- The frame in progress is discarded with a rescan of the bytes held (R175). -/
def rescan (s : State) : State :=
  if s.lnk.framer = .hunt then s else startGap (feed (feedWork 0 s) s.lnk.heldBytes (framerHunt s))

/-- The byte discards the frame in progress: a bad LEN, a bad sum, or a good sum of a kind outside 1 to 63 (R175). -/
def discards (b : Byte) (s : State) : Bool :=
  match s.lnk.framer with
  | .len => !lenGood b
  | .check _ => !sumGood (s.lnk.heldBytes ++ [b]) || !requestKind (s.lnk.heldBytes.getD 1 0)
  | _ => false

end Sys2Proof.Machine
end

