-- ==== Sys2Proof/Machine/Timers.lean ====
section
/-! DEFINITION. Events of the part's own timers: the dispenser bus (R95), BOARD_RELEASE (R82), TAPE_GAP (R117), the flash clock
(R171), the settle timers (R133), and the parts of motions that opcode_table.json lists as events of their own (R128, R129,
R131, R133, R139, R151). -/

namespace Sys2Proof.Machine

/-! ### Fixed pulses -/

/-- The sending of a frame on the dispenser bus completes, and the lines go low (R95). -/
def dspDone (s : State) : State := { s with sqc := { s.sqc with dsp := none } }

/-- The BOARD_RELEASE pulse ends (R82). -/
def boardReleaseEnd (s : State) : State := { s with pgs := { s.pgs with boardRelease := none } }

/-- The TAPE_GAP pulse ends; a held pulse waits its 20 ms (R117). -/
def gapPulseEnd (s : State) : State :=
  match s.tmu.gap with
  | some _ =>
    { s with tmu := { s.tmu with gap := none, gapWait := if s.tmu.gapHeld.isEmpty then none else some 0 } }
  | none => s

/-- A held TAPE_GAP pulse begins, with TAPE_GAP_2 from its own pass end (R117). -/
def gapHeldStart (s : State) : State :=
  match s.tmu.gap, s.tmu.gapHeld with
  | none, two :: rest => { s with tmu := { s.tmu with gap := some (two, 0), gapHeld := rest, gapWait := none } }
  | _, _ => s

/-- The flash clock changes half (R171). -/
def flashToggle (s : State) : State := { s with fau := { s.fau with flashOn := !s.fau.flashOn, flashTimer := 0 } }

/-! ### Motion -/

/-- The settle timer of a motion reaches its time (R133, R152, R190, R194). -/
def settleReached (m : MotionKind) (s : State) : State :=
  match m with
  | .planned =>
    match s.mot.running, s.mot.settle with
    | some p, some _ => plannedSettleEnd p s
    | _, _ => s
  | .service => if s.mot.serviceSettle.isSome then serviceSettleEnd s else s

/-- The millisecond tick of a generator ends: what it has still to issue to the axis it serves is issued (R128). -/
def generatorTick (g : Generator) (s : State) : State :=
  match servedBy g s with
  | some a => tickAxis a s
  | none => s

/-- A tick would be the last of the axis: the last of a profile, or that of a jog or a search that is ending (R133, R139,
R190). -/
def lastTick (a : Axis) (s : State) : Bool :=
  match (s.mot.axis a).drive with
  | .profile _ ticks => decide (ticks.length ≤ 1)
  | .jog _ _ ending => ending
  | .search _ _ _ _ ending => ending
  | .idle => false

/-- The tick in progress carries a homed axis to a soft limit: a pulse of it has been withheld, or would be (R128). -/
def withholds (a : Axis) (s : State) : Bool :=
  (issuePulses a (pulsesLeft (s.mot.axis a)) s |>.mot.axis a).tick.withheld

/-- The tick in progress would bring the search of the axis to its search limit (R139). -/
def searchAtLimit (a : Axis) (s : State) : Bool :=
  limitReached (issuePulses a (pulsesLeft (s.mot.axis a)) s |>.mot.axis a)

/-- The tick of an axis that a generator serves, where a condition on it holds. -/
def tickWhen (cond : Axis → State → Bool) (a : Axis) (s : State) : State :=
  if serves a s && cond a s then tickAxis a s else s

/-- The axis has a motion in flight or held for it: its generator has something to issue to it, it is MOVING or SETTLING, a
plan moves it, or a service operation does. -/
def motionTaken (a : Axis) (s : State) : Bool :=
  (s.mot.axis a).drive != .idle || (s.mot.axis a).state == .moving || (s.mot.axis a).state == .settling ||
    s.mot.running.any (·.moves a) || s.mot.held.any (·.moves a) || serviceAxis s == some a

/-- The pending rates of an axis that is free to take up its next motion are adopted for it; rates written during a motion wait
for its end (R131, notes/assumptions/12.md). -/
def adoptRatesNow (a : Axis) (s : State) : State :=
  if motionTaken a s then s else setAxisRec a (s.mot.axis a).adoptRates s

end Sys2Proof.Machine
end

