-- ==== Sys2Proof/Machine/Clock.lean ====
section
/-! DEFINITION. The part's clock: what one microsecond does when no command waits (notes/assumptions/1.md). The filters sample
their pins (R26, R48, R96, R136, R168), the timers count, the generators issue their pulses, and each timer that comes to its
end takes the event that its command takes. -/

namespace Sys2Proof.Machine

/-! ### Filters (R48) -/

/-- One sample of a filter: the edge it accepts, if any. -/
def Filter.edge (count : Nat) (f : Filter) : Option Edge :=
  if f.raw ≠ f.accepted ∧ count ≤ f.candidate + 1 then some (if f.raw then .rise else .fall) else none

/-- The candidate count after a sample that accepts no edge. -/
def Filter.count (f : Filter) : Filter := { f with candidate := if f.raw = f.accepted then 0 else f.candidate + 1 }

/-- A sample of a filter whose rise and fall are events. -/
def sampled (count : Nat) (f : Filter) (keep : Filter → State → State) (rise fall : State → State) (s : State) : State :=
  match f.edge count with
  | some .rise => event rise s
  | some .fall => event fall s
  | none => keep f.count s

/-- One sample of a machine input. -/
def sampleInput (i : InputNo) (s : State) : State :=
  let f := s.wmu.inputs[i]
  match f.edge s.wmu.filterCounts[i] with
  | some e => eventRun (inputEdge i e) s
  | none => setInput i f.count s

/-- The twelve machine inputs. -/
def allInputs : List InputNo := [0, 1, 2, 3, 4, 5, 6, 7, 8, 9, 10, 11]

/-- One sample of a home input. -/
def sampleHome (a : Axis) (s : State) : State :=
  sampled Config.fixedFilter (s.mot.axis a).homeInput (setHomeInput a) (homeRise a) (homeFall a) s

/-- One sample of VSTROBE. -/
def sampleStrobe (s : State) : State :=
  sampled Config.fixedFilter s.sqc.vstrobe (fun f t => { t with sqc := { t.sqc with vstrobe := f } })
    (strobe s.sqc.vcode) strobeFall s

/-- One sample of LIMIT. -/
def sampleLimit (s : State) : State :=
  sampled Config.fixedFilter s.mot.limit (fun f t => { t with mot := { t.mot with limit := f } }) limitRise limitFall s

/-- One sample of STOP_LINE. -/
def sampleStopLine (s : State) : State :=
  sampled Config.fixedFilter s.fau.stopLine (fun f t => { t with fau := { t.fau with stopLine := f } }) stopLineRise
    stopLineFall s

/-- One sample of the index input (R26). -/
def sampleIndex (s : State) : State :=
  sampled Config.fixedFilter s.stu.indexInput (fun f t => { t with stu := { t.stu with indexInput := f } }) indexRise
    indexFall s

/-- The samples of every 100 microseconds. -/
def samples (s : State) : State :=
  let t := allInputs.foldl (fun t i => sampleInput i t) s
  sampleStopLine (sampleLimit (allAxes.foldl (fun t a => sampleHome a t) (sampleStrobe t)))

/-! ### Millisecond timers -/

/-- The rest time (R6). -/
def restTick (s : State) : State :=
  if s.msv.atRest then s
  else if Config.restTime ≤ s.msv.restTimer + 1 then eventRun rest s
  else { s with msv := { s.msv with restTimer := s.msv.restTimer + 1 } }

/-- The stall timer (R30). -/
def stallTick (s : State) : State :=
  match s.stu.stallTimer with
  | none => s
  | some t =>
    if t.time ≤ t.elapsed + 1 then event stall s
    else { s with stu := { s.stu with stallTimer := some { t with elapsed := t.elapsed + 1 } } }

/-- The on-timer and the release timer of a channel (R43, R44). -/
def channelTick (i : ChannelNo) (s : State) : State :=
  let c := s.stu.channels[i]
  if channelOutput i c then
    event (guardChannel i) (setChannelRec i { c with onTimer := c.onTimer + 1 } s)
  else if c.locked then
    if c.command || c.force then setChannelRec i { c with releaseTimer := 0 } s
    else if Config.releaseTime ≤ c.releaseTimer + 1 then releaseLock i s
    else setChannelRec i { c with releaseTimer := c.releaseTimer + 1 } s
  else s

/-- The gap timer of the framer (R175). What the end of the last reply brings about comes first (R173, R176). -/
def frameTick (s : State) : State :=
  match s.lnk.gapTimer with
  | none => s
  | some n =>
    if Config.frameGap < n + 1 then rescan (linkDue s) else { s with lnk := { s.lnk with gapTimer := some (n + 1) } }

/-- The BOARD_RELEASE pulse. -/
def boardReleaseTick (s : State) : State :=
  match s.pgs.boardRelease with
  | none => s
  | some n =>
    if Config.boardReleaseTime ≤ n + 1 then boardReleaseEnd s
    else { s with pgs := { s.pgs with boardRelease := some (n + 1) } }

/-- The TAPE_GAP pulse, and the wait of a held one. -/
def gapTick (s : State) : State :=
  match s.tmu.gap, s.tmu.gapWait with
  | some (two, n), _ =>
    if Config.tapeGapTime ≤ n + 1 then gapPulseEnd s else { s with tmu := { s.tmu with gap := some (two, n + 1) } }
  | none, some n =>
    if Config.tapeGapTime ≤ n + 1 then gapHeldStart s else { s with tmu := { s.tmu with gapWait := some (n + 1) } }
  | none, none => s

/-- The flash clock. -/
def flashTick (s : State) : State :=
  if Config.flashHalf ≤ s.fau.flashTimer + 1 then flashToggle s
  else { s with fau := { s.fau with flashTimer := s.fau.flashTimer + 1 } }

/-- A millisecond of the part's clock, for every timer but those of the motions (notes/assumptions/19.md). -/
def millisecond (s : State) : State :=
  let t := flashTick (gapTick (boardReleaseTick (frameTick s)))
  stallTick (restTick (allChannels.foldl (fun t i => channelTick i t) t))

/-! ### The microsecond -/

/-- The period timer counts period ticks and holds at 65,535 (R29). -/
def periodTick (s : State) : State :=
  { s with stu := { s.stu with periodTimer := s.stu.periodTimer.map fun n => min (n + 1) Config.holdMax } }

/-- The sending of a frame on the dispenser bus goes on (R95). -/
def dspTick (s : State) : State :=
  match s.sqc.dsp with
  | none => s
  | some d =>
    if Config.dspSendTime ≤ d.elapsed + 1 then dspDone s
    else { s with sqc := { s.sqc with dsp := some { d with elapsed := d.elapsed + 1 } } }

/-- A settle timer a microsecond later: the timer, or none at its end (R133). -/
def Settle.next (t : Settle) : Option Settle :=
  if t.micro + 1 < Config.tickTime then some { t with micro := t.micro + 1 }
  else if t.time ≤ t.elapsed + 1 then none
  else some { time := t.time, elapsed := t.elapsed + 1 }

/-- A settle timer goes on. -/
def settleMicro (m : MotionKind) (s : State) : State :=
  let timer := match m with
    | .planned => s.mot.settle
    | .service => s.mot.serviceSettle
  match timer.bind Settle.next, m with
  | none, _ => eventRun (settleReached m) s
  | some t, .planned => { s with mot := { s.mot with settle := some t } }
  | some t, .service => { s with mot := { s.mot with serviceSettle := some t } }

/-- The generators' microsecond: each axis that had a motion to run as it began. -/
def generatorsMicro (s : State) : State :=
  allAxes.foldl (fun t a => if (s.mot.axis a).drive = .idle then t else axisMicro a t) (mapAxes AxisRec.pulseFades s)

/-- A microsecond of the motions: the generators, the switch gap and the settle timers. What begins in this microsecond does not
count it. -/
def motionMicro (s : State) : State :=
  let t := generatorsMicro s
  let t := if s.mot.cGap.isSome then gapMicro t else t
  let t := if s.mot.settle.isSome then settleMicro .planned t else t
  if s.mot.serviceSettle.isSome then settleMicro .service t else t

/-- One microsecond of the part's clock. -/
def tick (s : State) : State :=
  let m := s.clock.micro + 1
  let t := motionMicro { s with clock := { s.clock with micro := m % 1000 } }
  let t := dspTick (sampleIndex t)
  let t := if m % 10 = 0 then periodTick t else t
  let t := if m % 100 = 0 then samples t else t
  if m % 1000 = 0 then millisecond t else t

end Sys2Proof.Machine
end

