-- ==== Sys2Proof/Machine/LinkCommands.lean ====
section
/-! DEFINITION. The commands of the link, of the resets and of identity (opcode_table.json): one meaning for each row. -/

namespace Sys2Proof.Machine

/-- FULL_RESET (R23). -/
def execFullReset (s : State) : Host.Outcome State Fault Refusal := .next (fullReset s)

/-- RESTART, kind 03h (R24). -/
def execRestart (s : State) : Host.Outcome State Fault Refusal := .next (request 3 restartRequest s)

/-- IDENTIFY, kind 01h (R183). -/
def execIdentify (s : State) : Host.Outcome State Fault Refusal := .next (request 1 identifyRequest s)

/-- STATUS, kind 02h (R184). -/
def execStatus (s : State) : Host.Outcome State Fault Refusal := .next (request 2 statusRequest s)

/-- SET_BAUD, kind 04h (R173). -/
def execSetBaud (code : Byte) (s : State) : Host.Outcome State Fault Refusal :=
  .next (request 4 (baudRequest code) s)

/-- BAUD_SWITCH: the end of the SET_BAUD reply (R173). -/
def execBaudSwitch (s : State) : Host.Outcome State Fault Refusal := .next (baudSwitch s)

/-- REPORT_MASK, kind 05h (R182). -/
def execReportMask (mask : Byte) (s : State) : Host.Outcome State Fault Refusal :=
  .next (request 5 (maskRequest mask) s)

/-- UNASSIGNED_KIND: a request of a kind with no assignment, or of a service kind outside SERVICE (R177). Any other kind is
not this event. -/
def execUnassignedKind (kind : Byte) (s : State) : Host.Outcome State Fault Refusal :=
  .next (if unassignedHere kind s then request kind (unassigned kind) s else s)

/-- FRAME_DISCARD: the received byte that discards the frame in progress (R175). Any other byte is not this event. -/
def execFrameDiscard (last : Byte) (s : State) : Host.Outcome State Fault Refusal :=
  .next (if discards last (linkDue s) then receive last (linkDue s) else s)

/-- FRAME_GAP_TIMEOUT: the frame in progress is discarded with a rescan (R175). -/
def execFrameGapTimeout (s : State) : Host.Outcome State Fault Refusal := .next (rescan (linkDue s))

/-- FRAMING_ERROR: the byte is not passed to the framer and ends the frame in progress (R173). -/
def execFramingError (s : State) : Host.Outcome State Fault Refusal := .next (rescan (linkDue s))

/-- WAITING_REQUEST: a request that completes while another is in service waits, or is dropped (R176). With none in
service it is not this event. -/
def execWaitingRequest (kind : Byte) (s : State) : Host.Outcome State Fault Refusal :=
  .next (if requestKind kind && (linkDue s).lnk.inService.isSome then request kind (refuse .busy) s else s)

/-- BUSY: with the reply sent, the waiting request is answered BUSY (R176). -/
def execBusy (s : State) : Host.Outcome State Fault Refusal := .next (busyReply (baudSwitch s))

/-- REPLY_SEND: the reply that has been formed is sent (R180). -/
def execReplySend (s : State) : Host.Outcome State Fault Refusal := .next (replySend (linkDue s))

/-- REPORT_SEND: with no reply to send, the oldest report is sent (R180, R181). -/
def execReportSend (s : State) : Host.Outcome State Fault Refusal := .next (reportSend (linkDue s))

/-- RECEIVED_BYTE: the framer takes a byte (R175). -/
def execReceivedByte (value : Byte) (s : State) : Host.Outcome State Fault Refusal :=
  .next (receive value (linkDue s))

end Sys2Proof.Machine
end

