-- ==== Sys2Proof/Machine/MotionCommands.lean ====
section
/-! DEFINITION. The events of homing, of the axes, of LIMIT and STOP_LINE and of the fixed pulses: one meaning for each row. -/

namespace Sys2Proof.Machine

/-- HOME_SHAFT_PHASE: with the axes homed and the shaft at rest (R19). -/
def execHomeShaftPhase (s : State) : Host.Outcome State Fault Refusal := .next (event shaftPhase s)

/-- HOME_ACTIVITIES_OVER: after a STOP, with the axes and the shaft at their ends (R20). -/
def execHomeActivitiesOver (s : State) : Host.Outcome State Fault Refusal := .next (event activitiesOver s)

/-- MOVE_START: a HELD plan whose two events are met (R151). -/
def execMoveStart (s : State) : Host.Outcome State Fault Refusal := .next (event startHeld s)

/-- AXIS_RATE_ADOPT: an axis that has taken up a motion (R131). -/
def execAxisRateAdopt (axis : Axis) (s : State) : Host.Outcome State Fault Refusal := .next (adoptRatesNow axis s)

/-- AXIS_LAST_TICK_END: a tick that is the last of the axis (R133). Any other tick is not this event. -/
def execAxisLastTickEnd (axis : Axis) (s : State) : Host.Outcome State Fault Refusal :=
  .next (eventRun (tickWhen lastTick axis) s)

/-- SOFT_LIMIT_WITHHOLD: a tick that meets a soft limit (R128). Any other tick is not this event. -/
def execSoftLimitWithhold (axis : Axis) (s : State) : Host.Outcome State Fault Refusal :=
  .next (eventRun (tickWhen withholds axis) s)

/-- GEN_C_SWITCH_GAP_END (R129). -/
def execGenCSwitchGapEnd (s : State) : Host.Outcome State Fault Refusal := .next (event gapEnd s)

/-- SETTLE_END: the settle timer of a motion comes to its end (R133, R152, R190, R194). -/
def execSettleEnd (motion : MotionKind) (s : State) : Host.Outcome State Fault Refusal :=
  .next (eventRun (settleReached motion) s)

/-- SEARCH_LIMIT_REACHED: a tick that brings a search to its limit (R139). Any other tick is not this event. -/
def execSearchLimitReached (axis : Axis) (s : State) : Host.Outcome State Fault Refusal :=
  .next (eventRun (tickWhen searchAtLimit axis) s)

/-- HOME_INPUT_RISE (R138). -/
def execHomeInputRise (axis : Axis) (s : State) : Host.Outcome State Fault Refusal := .next (event (homeRise axis) s)

/-- HOME_INPUT_FALL (R137). -/
def execHomeInputFall (axis : Axis) (s : State) : Host.Outcome State Fault Refusal := .next (homeFall axis s)

/-- FEEDBACK_COUNT (R132). -/
def execFeedbackCount (axis : TableAxis) (positive : Bool) (s : State) : Host.Outcome State Fault Refusal :=
  .next (feedback axis positive s)

/-- LIMIT_RISE (R140). -/
def execLimitRise (s : State) : Host.Outcome State Fault Refusal := .next (event limitRise s)

/-- LIMIT_FALL (R140). -/
def execLimitFall (s : State) : Host.Outcome State Fault Refusal := .next (limitFall s)

/-- STOP_LINE_RISE (R168). -/
def execStopLineRise (s : State) : Host.Outcome State Fault Refusal := .next (event stopLineRise s)

/-- STOP_LINE_FALL (R168). -/
def execStopLineFall (s : State) : Host.Outcome State Fault Refusal := .next (stopLineFall s)

/-- BOARD_RELEASE_END (R82). -/
def execBoardReleaseEnd (s : State) : Host.Outcome State Fault Refusal := .next (boardReleaseEnd s)

/-- TAPE_GAP_END (R117). -/
def execTapeGapEnd (s : State) : Host.Outcome State Fault Refusal := .next (gapPulseEnd s)

/-- TAPE_GAP_HELD_START (R117). -/
def execTapeGapHeldStart (s : State) : Host.Outcome State Fault Refusal := .next (gapHeldStart s)

/-- FLASH_CLOCK_TOGGLE (R171). -/
def execFlashClockToggle (s : State) : Host.Outcome State Fault Refusal := .next (flashToggle s)

/-- GENERATOR_TICK (R128). -/
def execGeneratorTick (generator : Generator) (s : State) : Host.Outcome State Fault Refusal :=
  .next (eventRun (generatorTick generator) s)

end Sys2Proof.Machine
end

