-- ==== Sys2Proof/Machine/ProgramCommands.lean ====
section
/-! DEFINITION. The requests of the program and of the tape map: one meaning for each row. -/

namespace Sys2Proof.Machine

/-- STEP_CURSOR, kind 10h (R68). -/
def execStepCursor (position : Word16) (mode : Byte) (s : State) : Host.Outcome State Fault Refusal :=
  .next (request 16 (stepCursorRequest position mode) s)

/-- STEP_WRITE, kind 11h (R69). -/
def execStepWrite (records : List StepFields) (s : State) : Host.Outcome State Fault Refusal :=
  .next (request 17 (stepWriteRequest records) s)

/-- STEP_READ, kind 12h (R70). -/
def execStepRead (count : Byte) (s : State) : Host.Outcome State Fault Refusal :=
  .next (request 18 (stepReadRequest count) s)

/-- STEP_COUNT, kind 13h (R67). -/
def execStepCount (count : Word16) (s : State) : Host.Outcome State Fault Refusal :=
  .next (request 19 (stepCountRequest count) s)

/-- PANEL_SET, kind 14h (R73, R74). -/
def execPanelSet (f : PanelFields) (s : State) : Host.Outcome State Fault Refusal :=
  .next (request 20 (panelSetRequest f) s)

/-- ITEM_READ, kind 15h (R78). -/
def execItemRead (position : Word16) (image count : Byte) (s : State) : Host.Outcome State Fault Refusal :=
  .next (request 21 (itemReadRequest position image count) s)

/-- TAPEMAP_CURSOR, kind 18h, map form (R111). -/
def execTapemapCursorMap (position : Word16) (mode : Byte) (s : State) : Host.Outcome State Fault Refusal :=
  .next (request 24 (mapCursorRequest position mode) s)

/-- TAPEMAP_CURSOR, kind 18h, tape form (R113). -/
def execTapemapCursorTape (position : Word16) (s : State) : Host.Outcome State Fault Refusal :=
  .next (request 24 (tapePositionRequest position) s)

/-- TAPEMAP_WRITE, kind 19h (R111). -/
def execTapemapWrite (entries : List TapeFields) (s : State) : Host.Outcome State Fault Refusal :=
  .next (request 25 (mapWriteRequest entries) s)

/-- TAPEMAP_READ, kind 1Ah (R112). -/
def execTapemapRead (count : Byte) (s : State) : Host.Outcome State Fault Refusal :=
  .next (request 26 (mapReadRequest count) s)

/-- TAPEMAP_CLEAR, kind 1Bh (R112). -/
def execTapemapClear (s : State) : Host.Outcome State Fault Refusal := .next (request 27 mapClearRequest s)

end Sys2Proof.Machine
end

