-- ==== Sys2Proof/Machine/RunCommands.lean ====
section
/-! DEFINITION. The requests that run, stop, clear and service the machine: one meaning for each row. -/

namespace Sys2Proof.Machine

/-- HOME, kind 20h (R19). -/
def execHome (s : State) : Host.Outcome State Fault Refusal := .next (request 32 homeRequest s)

/-- RUN, kind 21h (R15). -/
def execRun (mode count cont : Byte) (s : State) : Host.Outcome State Fault Refusal :=
  .next (request 33 (runRequest mode count cont) s)

/-- STOP, kind 22h (R18). -/
def execStop (s : State) : Host.Outcome State Fault Refusal := .next (request 34 stopRequest s)

/-- CLEAR_FAULT, kind 23h (R166). -/
def execClearFault (s : State) : Host.Outcome State Fault Refusal := .next (request 35 clearRequest s)

/-- SILENCE, kind 24h (R169). -/
def execSilence (s : State) : Host.Outcome State Fault Refusal := .next (request 36 silenceRequest s)

/-- ACK_WARNINGS, kind 25h (R170). -/
def execAckWarnings (s : State) : Host.Outcome State Fault Refusal := .next (request 37 ackRequest s)

/-- DISPENSER_READY, kind 26h (R103). -/
def execDispenserReady (number : Byte) (s : State) : Host.Outcome State Fault Refusal :=
  .next (request 38 (readyRequest number) s)

/-- PANEL_RELEASE, kind 27h (R83). -/
def execPanelRelease (s : State) : Host.Outcome State Fault Refusal := .next (request 39 releaseRequest s)

/-- CHAIN_READ, kind 28h (R108). -/
def execChainRead (first count : Byte) (s : State) : Host.Outcome State Fault Refusal :=
  .next (request 40 (chainReadRequest first count) s)

/-- REDO_READ, kind 29h (R108). -/
def execRedoRead (s : State) : Host.Outcome State Fault Refusal := .next (request 41 redoReadRequest s)

/-- CAPTURE_READ, kind 2Ah (R165). -/
def execCaptureRead (s : State) : Host.Outcome State Fault Refusal := .next (request 42 captureRequest s)

/-- SERVICE_ENTER, kind 30h (R188). -/
def execServiceEnter (s : State) : Host.Outcome State Fault Refusal := .next (request 48 enterRequest s)

/-- SERVICE_EXIT, kind 31h (R188). -/
def execServiceExit (s : State) : Host.Outcome State Fault Refusal := .next (request 49 exitRequest s)

/-- JOG, kind 32h, action RUN_POSITIVE (R190). -/
def execJogRunPositive (axis : Byte) (s : State) : Host.Outcome State Fault Refusal :=
  .next (request 50 (serviceOnly (jogRunRequest axis true)) s)

/-- JOG, kind 32h, action RUN_NEGATIVE (R190). -/
def execJogRunNegative (axis : Byte) (s : State) : Host.Outcome State Fault Refusal :=
  .next (request 50 (serviceOnly (jogRunRequest axis false)) s)

/-- JOG, kind 32h, action COUNTED (R190). -/
def execJogCounted (axis : Byte) (distance : Word32) (s : State) : Host.Outcome State Fault Refusal :=
  .next (request 50 (serviceOnly (jogCountedRequest axis distance)) s)

/-- JOG, kind 32h, action HALT (R190). -/
def execJogHalt (axis : Byte) (s : State) : Host.Outcome State Fault Refusal :=
  .next (request 50 (serviceOnly (jogHaltRequest axis)) s)

/-- FORCE_CHANNEL, kind 33h, action SET (R191). -/
def execForceChannelSet (channel : Byte) (s : State) : Host.Outcome State Fault Refusal :=
  .next (request 51 (serviceOnly (forceRequest channel fun _ => true)) s)

/-- FORCE_CHANNEL, kind 33h, action CLEAR (R191). -/
def execForceChannelClear (channel : Byte) (s : State) : Host.Outcome State Fault Refusal :=
  .next (request 51 (serviceOnly (forceRequest channel fun _ => false)) s)

/-- FORCE_CHANNEL, kind 33h, action TOGGLE (R191). -/
def execForceChannelToggle (channel : Byte) (s : State) : Host.Outcome State Fault Refusal :=
  .next (request 51 (serviceOnly (forceRequest channel fun b => !b)) s)

/-- LOOP_TEST, kind 34h (R193). -/
def execLoopTest (axis mode : Byte) (seed : Word16) (s : State) : Host.Outcome State Fault Refusal :=
  .next (request 52 (serviceOnly (loopRequest axis mode seed)) s)

/-- DRY_CYCLE, kind 35h (R192). -/
def execDryCycle (s : State) : Host.Outcome State Fault Refusal := .next (request 53 (serviceOnly dryRequest) s)

end Sys2Proof.Machine
end

