-- ==== Sys2Proof/Machine/SettingsCommands.lean ====
section
/-! DEFINITION. The requests that set the machine profile, the station map and the dispenser table: one meaning for each row. -/

namespace Sys2Proof.Machine

/-- SET_LANDMARKS, kind 08h (R33). -/
def execSetLandmarks (f : LandmarkFields) (s : State) : Host.Outcome State Fault Refusal :=
  .next (request 8 (landmarksRequest f) s)

/-- SET_CHANNEL, kind 09h (R42). -/
def execSetChannel (f : ChannelFields) (s : State) : Host.Outcome State Fault Refusal :=
  .next (request 9 (channelRequest f) s)

/-- SET_WINDOW, kind 0Ah, window form (R52). -/
def execSetWindowWindow (f : WindowFields) (s : State) : Host.Outcome State Fault Refusal :=
  .next (request 10 (windowRequest f) s)

/-- SET_WINDOW, kind 0Ah, input form (R49). -/
def execSetWindowInput (input count : Byte) (s : State) : Host.Outcome State Fault Refusal :=
  .next (request 10 (windowInputRequest input count) s)

/-- SET_WINDOW, kind 0Ah, skew form (R61). -/
def execSetWindowSkew (limit : Word16) (s : State) : Host.Outcome State Fault Refusal :=
  .next (request 10 (windowSkewRequest limit) s)

/-- SET_AXIS, kind 0Bh (R130). -/
def execSetAxis (f : AxisFields) (s : State) : Host.Outcome State Fault Refusal :=
  .next (request 11 (axisRequest f) s)

/-- SET_STATIONS, kind 0Ch, map form (R86). -/
def execSetStationsMap (q v r : Byte) (s : State) : Host.Outcome State Fault Refusal :=
  .next (request 12 (stationsRequest q v r) s)

/-- SET_STATIONS, kind 0Ch, threshold form (R102). -/
def execSetStationsThreshold (depletion suspect : Byte) (s : State) : Host.Outcome State Fault Refusal :=
  .next (request 12 (thresholdRequest depletion suspect) s)

/-- SET_DISPENSER, kind 0Dh, action KEEP (R101). -/
def execSetDispenserKeep (number position cls : Byte) (s : State) : Host.Outcome State Fault Refusal :=
  .next (request 13 (dispenserRequest .keep number position cls) s)

/-- SET_DISPENSER, kind 0Dh, action ENABLE (R101). -/
def execSetDispenserEnable (number position cls : Byte) (s : State) : Host.Outcome State Fault Refusal :=
  .next (request 13 (dispenserRequest .enable number position cls) s)

/-- SET_DISPENSER, kind 0Dh, action DISABLE (R101). -/
def execSetDispenserDisable (number position cls : Byte) (s : State) : Host.Outcome State Fault Refusal :=
  .next (request 13 (dispenserRequest .disable number position cls) s)

/-- SET_SPAN, kind 0Eh (R72). -/
def execSetSpan (code : Byte) (position : Word16) (s : State) : Host.Outcome State Fault Refusal :=
  .next (request 14 (spanRequest code position) s)

/-- SET_GEOMETRY, kind 0Fh (R135). -/
def execSetGeometry (f : GeometryFields) (s : State) : Host.Outcome State Fault Refusal :=
  .next (request 15 (geometryRequest f) s)

end Sys2Proof.Machine
end

