-- ==== Sys2Proof/Machine/ShaftCommands.lean ====
section
/-! DEFINITION. The events of the shaft, of its channels and of the machine inputs: one meaning for each row. -/

namespace Sys2Proof.Machine

/-- FORWARD_COUNT (R25). -/
def execForwardCount (s : State) : Host.Outcome State Fault Refusal := .next (event forward s)

/-- REVERSE_COUNT (R25, R31). -/
def execReverseCount (s : State) : Host.Outcome State Fault Refusal := .next (event reverse s)

/-- INDEX_MARK: an accepted rise of the index input (R26 to R29). -/
def execIndexMark (s : State) : Host.Outcome State Fault Refusal := .next (event indexRise s)

/-- INDEX_FALL (R26). -/
def execIndexFall (s : State) : Host.Outcome State Fault Refusal := .next (indexFall s)

/-- DSP_SEND_DONE (R95). -/
def execDspSendDone (s : State) : Host.Outcome State Fault Refusal := .next (dspDone s)

/-- EDGE_DELAY_REACHED: an armed trigger comes to its delay (R39). -/
def execEdgeDelayReached (channel : ChannelNo) (s : State) : Host.Outcome State Fault Refusal :=
  .next (event (delayReached channel) s)

/-- EDGE_WIDTH_REACHED: a running trigger comes to its width (R39). -/
def execEdgeWidthReached (channel : ChannelNo) (s : State) : Host.Outcome State Fault Refusal :=
  .next (event (widthReached channel) s)

/-- SINGLE_REV_TRIP_DROP: the trip of the single revolution in progress is dropped (R5). -/
def execSingleRevTripDrop (s : State) : Host.Outcome State Fault Refusal := .next (event dropSingle s)

/-- INPUT_EDGE: an accepted edge of a machine input (R48). -/
def execInputEdge (input : InputNo) (edge : Edge) (s : State) : Host.Outcome State Fault Refusal :=
  .next (eventRun (inputEdge input edge) s)

/-- BOARD_PRESENT_FALL: an accepted fall of input 6 (R80). -/
def execBoardPresentFall (s : State) : Host.Outcome State Fault Refusal := .next (event (inputEdge 6 .fall) s)

/-- BOARD_PRESENT_RISE: an accepted rise of input 6 (R80). -/
def execBoardPresentRise (s : State) : Host.Outcome State Fault Refusal := .next (eventRun (inputEdge 6 .rise) s)

/-- PANEL_START, where R79 allows one. -/
def execPanelStart (s : State) : Host.Outcome State Fault Refusal := .next (eventRun tryStartPanel s)

/-- TAPE_END_RISE: an accepted rise of input 7 (R114, R121). -/
def execTapeEndRise (s : State) : Host.Outcome State Fault Refusal := .next (event (inputEdge 7 .rise) s)

/-- TAPE_END_FALL: an accepted fall of input 7 (R114). -/
def execTapeEndFall (s : State) : Host.Outcome State Fault Refusal := .next (eventRun (inputEdge 7 .fall) s)

/-- VSTROBE_RISE with the code that stands on VCODE (R96). -/
def execVstrobeRise (code : VCode) (s : State) : Host.Outcome State Fault Refusal := .next (event (strobe code) s)

/-- VSTROBE_FALL (R96). -/
def execVstrobeFall (s : State) : Host.Outcome State Fault Refusal := .next (strobeFall s)

/-- REST: 50 ms without an encoder count (R6 to R8). -/
def execRest (s : State) : Host.Outcome State Fault Refusal := .next (eventRun rest s)

/-- PENDING_FAULT_ADD (R10). -/
def execPendingFaultAdd (s : State) : Host.Outcome State Fault Refusal := .next (event addPendingFault s)

/-- STALL_TIME_REACHED: the stall timer comes to its end (R30). -/
def execStallTimeReached (s : State) : Host.Outcome State Fault Refusal := .next (event stall s)

/-- OVERRUN_LIMIT_REACHED: the on-timer of a channel that is on comes to its limit (R43). -/
def execOverrunLimitReached (channel : ChannelNo) (s : State) : Host.Outcome State Fault Refusal :=
  .next (if channelOutput channel s.stu.channels[channel] then event (overrun channel) s else s)

/-- LOCK_RELEASE: the release timer of a locked channel comes to its end (R44). -/
def execLockRelease (channel : ChannelNo) (s : State) : Host.Outcome State Fault Refusal :=
  .next (releaseLock channel s)

/-- CHANNEL_SETTINGS_ADOPT (R42). -/
def execChannelSettingsAdopt (s : State) : Host.Outcome State Fault Refusal := .next (event adoptChannels s)

/-- WINDOW_SETTINGS_ADOPT (R52). -/
def execWindowSettingsAdopt (s : State) : Host.Outcome State Fault Refusal := .next (adoptWindows s)

end Sys2Proof.Machine
end

