-- ==== Sys2Proof/Machine/Dispatch.lean ====
section
/-! DEFINITION. The dispatch: one arm for each command, each a direct call of its meaning. -/

namespace Sys2Proof.Machine

/-- A command's effect on everything but the queue. -/
def exec (i : Instr) (s : State) : Host.Outcome State Fault Refusal :=
  match i with
  | .fullReset => Sys2Proof.Machine.execFullReset s
  | .restart => Sys2Proof.Machine.execRestart s
  | .identify => Sys2Proof.Machine.execIdentify s
  | .status => Sys2Proof.Machine.execStatus s
  | .setBaud code => Sys2Proof.Machine.execSetBaud code s
  | .baudSwitch => Sys2Proof.Machine.execBaudSwitch s
  | .reportMask mask => Sys2Proof.Machine.execReportMask mask s
  | .setLandmarks f => Sys2Proof.Machine.execSetLandmarks f s
  | .setChannel f => Sys2Proof.Machine.execSetChannel f s
  | .setWindowWindow f => Sys2Proof.Machine.execSetWindowWindow f s
  | .setWindowInput input count => Sys2Proof.Machine.execSetWindowInput input count s
  | .setWindowSkew limit => Sys2Proof.Machine.execSetWindowSkew limit s
  | .setAxis f => Sys2Proof.Machine.execSetAxis f s
  | .setStationsMap q v r => Sys2Proof.Machine.execSetStationsMap q v r s
  | .setStationsThreshold depletion suspect => Sys2Proof.Machine.execSetStationsThreshold depletion suspect s
  | .setDispenserKeep number position cls => Sys2Proof.Machine.execSetDispenserKeep number position cls s
  | .setDispenserEnable number position cls => Sys2Proof.Machine.execSetDispenserEnable number position cls s
  | .setDispenserDisable number position cls => Sys2Proof.Machine.execSetDispenserDisable number position cls s
  | .setSpan code position => Sys2Proof.Machine.execSetSpan code position s
  | .setGeometry f => Sys2Proof.Machine.execSetGeometry f s
  | .stepCursor position mode => Sys2Proof.Machine.execStepCursor position mode s
  | .stepWrite records => Sys2Proof.Machine.execStepWrite records s
  | .stepRead count => Sys2Proof.Machine.execStepRead count s
  | .stepCount count => Sys2Proof.Machine.execStepCount count s
  | .panelSet f => Sys2Proof.Machine.execPanelSet f s
  | .itemRead position image count => Sys2Proof.Machine.execItemRead position image count s
  | .tapemapCursorMap position mode => Sys2Proof.Machine.execTapemapCursorMap position mode s
  | .tapemapCursorTape position => Sys2Proof.Machine.execTapemapCursorTape position s
  | .tapemapWrite entries => Sys2Proof.Machine.execTapemapWrite entries s
  | .tapemapRead count => Sys2Proof.Machine.execTapemapRead count s
  | .tapemapClear => Sys2Proof.Machine.execTapemapClear s
  | .home => Sys2Proof.Machine.execHome s
  | .run mode count cont => Sys2Proof.Machine.execRun mode count cont s
  | .stop => Sys2Proof.Machine.execStop s
  | .clearFault => Sys2Proof.Machine.execClearFault s
  | .silence => Sys2Proof.Machine.execSilence s
  | .ackWarnings => Sys2Proof.Machine.execAckWarnings s
  | .dispenserReady number => Sys2Proof.Machine.execDispenserReady number s
  | .panelRelease => Sys2Proof.Machine.execPanelRelease s
  | .chainRead first count => Sys2Proof.Machine.execChainRead first count s
  | .redoRead => Sys2Proof.Machine.execRedoRead s
  | .captureRead => Sys2Proof.Machine.execCaptureRead s
  | .serviceEnter => Sys2Proof.Machine.execServiceEnter s
  | .serviceExit => Sys2Proof.Machine.execServiceExit s
  | .jogRunPositive axis => Sys2Proof.Machine.execJogRunPositive axis s
  | .jogRunNegative axis => Sys2Proof.Machine.execJogRunNegative axis s
  | .jogCounted axis distance => Sys2Proof.Machine.execJogCounted axis distance s
  | .jogHalt axis => Sys2Proof.Machine.execJogHalt axis s
  | .forceChannelSet channel => Sys2Proof.Machine.execForceChannelSet channel s
  | .forceChannelClear channel => Sys2Proof.Machine.execForceChannelClear channel s
  | .forceChannelToggle channel => Sys2Proof.Machine.execForceChannelToggle channel s
  | .loopTest axis mode seed => Sys2Proof.Machine.execLoopTest axis mode seed s
  | .dryCycle => Sys2Proof.Machine.execDryCycle s
  | .unassignedKind kind => Sys2Proof.Machine.execUnassignedKind kind s
  | .frameDiscard last => Sys2Proof.Machine.execFrameDiscard last s
  | .frameGapTimeout => Sys2Proof.Machine.execFrameGapTimeout s
  | .framingError => Sys2Proof.Machine.execFramingError s
  | .waitingRequest kind => Sys2Proof.Machine.execWaitingRequest kind s
  | .busy => Sys2Proof.Machine.execBusy s
  | .replySend => Sys2Proof.Machine.execReplySend s
  | .reportSend => Sys2Proof.Machine.execReportSend s
  | .forwardCount => Sys2Proof.Machine.execForwardCount s
  | .reverseCount => Sys2Proof.Machine.execReverseCount s
  | .indexMark => Sys2Proof.Machine.execIndexMark s
  | .dspSendDone => Sys2Proof.Machine.execDspSendDone s
  | .edgeDelayReached channel => Sys2Proof.Machine.execEdgeDelayReached channel s
  | .edgeWidthReached channel => Sys2Proof.Machine.execEdgeWidthReached channel s
  | .singleRevTripDrop => Sys2Proof.Machine.execSingleRevTripDrop s
  | .inputEdge input edge => Sys2Proof.Machine.execInputEdge input edge s
  | .boardPresentFall => Sys2Proof.Machine.execBoardPresentFall s
  | .boardPresentRise => Sys2Proof.Machine.execBoardPresentRise s
  | .panelStart => Sys2Proof.Machine.execPanelStart s
  | .tapeEndRise => Sys2Proof.Machine.execTapeEndRise s
  | .tapeEndFall => Sys2Proof.Machine.execTapeEndFall s
  | .vstrobeRise code => Sys2Proof.Machine.execVstrobeRise code s
  | .rest => Sys2Proof.Machine.execRest s
  | .pendingFaultAdd => Sys2Proof.Machine.execPendingFaultAdd s
  | .stallTimeReached => Sys2Proof.Machine.execStallTimeReached s
  | .overrunLimitReached channel => Sys2Proof.Machine.execOverrunLimitReached channel s
  | .lockRelease channel => Sys2Proof.Machine.execLockRelease channel s
  | .channelSettingsAdopt => Sys2Proof.Machine.execChannelSettingsAdopt s
  | .windowSettingsAdopt => Sys2Proof.Machine.execWindowSettingsAdopt s
  | .homeShaftPhase => Sys2Proof.Machine.execHomeShaftPhase s
  | .homeActivitiesOver => Sys2Proof.Machine.execHomeActivitiesOver s
  | .moveStart => Sys2Proof.Machine.execMoveStart s
  | .axisRateAdopt axis => Sys2Proof.Machine.execAxisRateAdopt axis s
  | .axisLastTickEnd axis => Sys2Proof.Machine.execAxisLastTickEnd axis s
  | .softLimitWithhold axis => Sys2Proof.Machine.execSoftLimitWithhold axis s
  | .genCSwitchGapEnd => Sys2Proof.Machine.execGenCSwitchGapEnd s
  | .settleEnd motion => Sys2Proof.Machine.execSettleEnd motion s
  | .searchLimitReached axis => Sys2Proof.Machine.execSearchLimitReached axis s
  | .homeInputRise axis => Sys2Proof.Machine.execHomeInputRise axis s
  | .homeInputFall axis => Sys2Proof.Machine.execHomeInputFall axis s
  | .feedbackCount axis positive => Sys2Proof.Machine.execFeedbackCount axis positive s
  | .limitRise => Sys2Proof.Machine.execLimitRise s
  | .limitFall => Sys2Proof.Machine.execLimitFall s
  | .stopLineRise => Sys2Proof.Machine.execStopLineRise s
  | .stopLineFall => Sys2Proof.Machine.execStopLineFall s
  | .boardReleaseEnd => Sys2Proof.Machine.execBoardReleaseEnd s
  | .tapeGapEnd => Sys2Proof.Machine.execTapeGapEnd s
  | .tapeGapHeldStart => Sys2Proof.Machine.execTapeGapHeldStart s
  | .flashClockToggle => Sys2Proof.Machine.execFlashClockToggle s
  | .generatorTick generator => Sys2Proof.Machine.execGeneratorTick generator s
  | .receivedByte value => Sys2Proof.Machine.execReceivedByte value s
  | .indexFall => Sys2Proof.Machine.execIndexFall s
  | .vstrobeFall => Sys2Proof.Machine.execVstrobeFall s

end Sys2Proof.Machine
end

