-- ==== Sys2Proof/Machine/Messages.lean ====
section
/-! DEFINITION. The central layouts of what the part sends (R185): the codes that a rule gives, the FAULT and CYCLE reports, the
records of a STEP_READ reply. -/

namespace Sys2Proof.Machine

/-- The code of a status (R177). -/
def statusCode : Status → Byte
  | .ok => 0
  | .badKind => 1
  | .badLength => 2
  | .badValue => 3
  | .wrongState => 4
  | .busy => 5
  | .notInService => 6
  | .tableEnd => 7
  | .causePresent => 8

/-- The code of a fault kind (R157). -/
def kindCode : FaultKind → Byte
  | .syncFail => 1
  | .encoderSlip => 2
  | .shaftStall => 3
  | .shaftReverse => 4
  | .shaftOvertravel => 5
  | .channelOverrun => 6
  | .chainJam => 7
  | .tapeJam => 8
  | .burst => 9
  | .homeFail => 10
  | .boardLost => 11
  | .following => 12
  | .limitSwitch => 13
  | .stopLine => 14
  | .headEmpty => 15
  | .leadMiss => 16
  | .headJam => 17
  | .guardTrip => 18
  | .watchMiss => 19
  | .lateTable => 20
  | .reelSuspect => 21
  | .tapeCount => 22
  | .tapeFull => 23
  | .leadSkew => 24
  | .verifierSilent => 25
  | .strayPart => 26
  | .itemAbandoned => 27
  | .targetRange => 28

/-- The code of a fault class (R185). -/
def classCode : FaultClass → Byte
  | .w => 1
  | .d => 2
  | .s => 3
  | .h => 4

/-- The code of an outcome (R185). -/
def outcomeCode : CycleOutcome → Byte
  | .inserted => 1
  | .unverified => 2
  | .suspect => 3
  | .returned => 4
  | .blank => 5
  | .cleared => 6
  | .held => 7

/-- A work item: the step in bits 0 to 9, the image minus 1 in bits 12 and 13, bit 15 set; an absent item is 0. -/
def itemCode : Option Item → Word16
  | none => 0
  | some i => BitVec.ofNat 16 (i.step.val + 4096 * i.image.val + 32768)

/-- A flag at its place in a byte. -/
def flagBit (n : Nat) (b : Bool) : Byte := if b then BitVec.ofNat 8 (2 ^ n) else 0

/-- The payload of a FAULT report, 14 bytes. -/
def faultPayload (r : FaultRecord) (entered overflow : Bool) : List Byte :=
  [flagBit 0 overflow ||| flagBit 1 entered ||| flagBit 2 r.synced, kindCode r.kind, classCode r.cls] ++
    bytes16 (itemCode r.item) ++ [BitVec.ofNat 8 (r.chainPos.getD 0)] ++ bytes16 (r.angle.setWidth 16) ++
    bytes16 r.cycle ++ bytes32 (BitVec.ofInt 32 r.detail)

/-- The payload of a CYCLE report, 9 + 3n bytes. -/
def cyclePayload (number : Count16) (item : Option Item) (outcome : CycleOutcome) (period : Nat) (valid : Bool)
    (captures : List (Nat × Angle)) (overflow : Bool) : List Byte :=
  [flagBit 0 overflow ||| flagBit 1 valid] ++ bytes16 number ++ bytes16 (itemCode item) ++ [outcomeCode outcome] ++
    bytes16 (BitVec.ofNat 16 period) ++ [BitVec.ofNat 8 captures.length] ++
    captures.flatMap fun c => BitVec.ofNat 8 c.1 :: bytes16 (c.2.setWidth 16)

/-- The step record as the line carries it. -/
def stepFieldsOf (r : StepRecord) : StepFields :=
  { x := r.x, y := r.y, rot := BitVec.ofFin r.rot, span := BitVec.ofFin r.span
    dispenser := BitVec.ofNat 6 r.dispenser.val, barrier := r.barrier, skip := r.skip }

/-- The absent map of a STEP_READ reply: bit j is set when record j is absent. -/
def absentMap (records : List (StepRecord × Bool)) : Word32 :=
  (records.zipIdx.map fun p => if p.1.2 then BitVec.ofNat 32 (2 ^ p.2) else 0).foldl (· ||| ·) 0

/-- The fields of a STEP_READ reply, behind its status: the first position, the count, the absent map, the records. -/
def stepRecordsBytes (first : Nat) (records : List (StepRecord × Bool)) : List Byte :=
  bytes16 (BitVec.ofNat 16 first) ++ [BitVec.ofNat 8 records.length] ++ bytes32 (absentMap records) ++
    records.flatMap fun p => bytesOfStep (stepFieldsOf p.1)

end Sys2Proof.Machine
end

