-- ==== Sys2Proof/Machine/Payloads.lean ====
section
/-! DEFINITION. The bytes of everything the part sends: the codes of the named values, each the place in the list of its owning
rule (R185), the payload of every reply and every report (R177 to R185), and the frame on the line (R174). The order and the
widths of the fields that no rule lays out are the model's (notes/assumptions/36.md). -/

namespace Sys2Proof.Machine

/-! ### Named values (R185) -/

/-- The code of a named value: its place in the list of its owning rule, counting from 0. -/
def placeCode {α : Type} [DecidableEq α] (names : List α) (v : α) : Byte := BitVec.ofNat 8 (names.idxOf v)

/-- The byte of an absent value that has no code of its own: 255 (notes/assumptions/36.md). -/
def absentCode : Byte := 255

/-- A named value that may be absent. -/
def placeCode? {α : Type} [DecidableEq α] (names : List α) (v : Option α) : Byte :=
  match v with
  | some v => placeCode names v
  | none => absentCode

/-- The machine states in the order of R1; RUNNING has one place. -/
def machineStateCode : MachineState → Byte
  | .unhomed => 0
  | .homing => 1
  | .stopped => 2
  | .running _ => 3
  | .stopping => 4
  | .halted => 5
  | .service => 6

/-- The sub-states in the order of R1, absent outside RUNNING. -/
def subStateCode : MachineState → Byte
  | .running sub => placeCode [.cycling, .dwell] sub
  | _ => absentCode

/-- The run modes in the order of R15, also for the mode of the open panel (notes/assumptions/37.md). -/
def runModes : List RunMode := [.direct, .tapeOut, .tapeIn]
/-- The roles of a window in the order of R50. -/
def windowRoles : List WindowRole := [.unused, .part, .lead1, .lead2, .driver, .chain, .tape, .guard, .watch]
/-- The edges of a window in the order of R51. -/
def windowEdges : List WindowEdge := [.rise, .fall, .high, .low]
/-- The senses of an EDGE channel in the order of R185. -/
def senses : List Edge := [.rise, .fall]
/-- The advance modes in the order of R68. -/
def advances : List Advance := [.hold, .all, .write]
/-- The item states in the order of R75. -/
def itemStates : List ItemState :=
  [.pending, .chained, .redo, .head, .inserted, .suspect, .abandoned, .skipped, .taped]
/-- The reasons of an ABANDONED item in the order of R75. -/
def reasons : List Reason := [.tries, .range, .released]
/-- The endings of a panel in the order of R82, then INCOMPLETE (R120). -/
def panelEndings : List PanelEnding := [.complete, .released, .incomplete]
/-- The states of a slot in the order of R87. -/
def slotStates : List SlotState := [.assigned, .loaded, .passed, .rejected]
/-- The classes of a dispenser in the order of R101. -/
def dispenserClasses : List DispenserClass := [.plain, .polarized]
/-- The states of a dispenser in the order of R101. -/
def dispenserStates : List DispenserState := [.disabled, .enabled, .depleted, .suspended]
/-- The causes of a DISPENSER report in the order of R103. -/
def dispenserCauses : List DispenserCause := [.depletion, .suspect, .ready, .enable, .disable]
/-- The verdict codes, given by R185 and in the order of R98. -/
def verdictCodes : List VCode := [.noPart, .pass, .failValue, .failPolarity]
/-- The reel states in the order of R113. -/
def reelStates : List ReelState := [.jammed, .unthreaded, .ready]
/-- The causes of a TAPE report in the order of R123. -/
def tapeCauses : List TapeCause := [.passEnd, .panelEnd, .mapEnd, .jam, .reel, .positionSet, .cleared]
/-- The axes in the order of R125. -/
def axisNames : List Axis := [.x, .y, .span, .rot]
/-- The states of an axis in the order of R126. -/
def axisStates : List AxisState := [.unhomed, .idle, .moving, .settling, .homing]
/-- The output styles in the order of R126. -/
def outputStyles : List OutputStyle := [.stepDir, .cwCcw]
/-- The results of a HOME and of a service operation in the order of R20 and R189. -/
def doneResults : List DoneResult := [.done, .aborted, .failed]
/-- The service operations in the order of R189. -/
def serviceNames : List ServiceName := [.jog, .dryCycle, .loopTest]
/-- The modes of a loop test in the order of R187: true is INTERNAL. -/
def loopModes : List Bool := [true, false]
/-- The states of a lamp in the order of R171. -/
def lampStates : List Lamp := [.off, .steady, .flashing]

/-! ### Fields -/

/-- A number in one byte. -/
def byteOf (n : Nat) : List Byte := [BitVec.ofNat 8 n]

/-- A number in two bytes. -/
def word16Of (n : Nat) : List Byte := bytes16 (BitVec.ofNat 16 n)

/-- A signed number in four bytes. -/
def signedOf (n : Int) : List Byte := bytes32 (BitVec.ofInt 32 n)

/-- A flag in a byte of its own: bit 0. -/
def flagByte (b : Bool) : Byte := flagBit 0 b

/-- Flags in one byte, the first in bit 0. -/
def flagBits (l : List Bool) : Byte := (l.zipIdx.map fun p => flagBit p.2 p.1).foldl (· ||| ·) 0

/-- Levels in two bytes, the first in bit 0. -/
def levelBits (l : List Bool) : List Byte := [flagBits (l.take 8), flagBits (l.drop 8)]

/-- An angle in two bytes. -/
def angleBytes (a : Angle) : List Byte := bytes16 (a.setWidth 16)

/-- A fault kind that may be absent: 0, or its code from 1 to 28. -/
def kindCode? : Option FaultKind → Byte
  | some k => kindCode k
  | none => 0

/-- The dwell reason set: a bit for each token in the order of R9. -/
def dwellBits (d : DwellSet) : Byte := flagBits [d.table, d.fault, d.board, d.starved, d.tape]

/-- The machine state, the sub-state, the finishing flag and the dwell reason set (R1). -/
def viewBytes (v : StateView) : List Byte :=
  [machineStateCode v.state, subStateCode v.state, flagByte v.finishing, dwellBits v.dwell]

/-- The counts of the nine item states in the order of R75, two bytes each. -/
def countBytes (c : ItemCounts) : List Byte :=
  [c.pending, c.chained, c.redo, c.head, c.inserted, c.suspect, c.abandoned, c.skipped, c.taped].flatMap word16Of

/-- The history of a dispenser: the number of verdicts, then each, oldest first. -/
def historyBytes (h : List VCode) : List Byte := byteOf h.length ++ h.map (placeCode verdictCodes)

/-- Rates: Rs, Rt, A. -/
def rateBytes (r : Rates) : List Byte := byteOf r.rs ++ byteOf r.rt ++ byteOf r.a

/-- An image entry of a panel setup. -/
def imageBytes (i : Image) : List Byte := bytes16 i.dx ++ bytes16 i.dy ++ [flagByte i.enabled]

/-- A tape map entry: its kind, 1 ITEM, 2 BLANK, 3 PANEL_END, its step and its image, 0 for the last two kinds (R179). -/
def entryBytes : TapeEntry → List Byte
  | .item i => [1] ++ word16Of i.step.val ++ byteOf (i.image.val + 1)
  | .blank => [2, 0, 0, 0]
  | .panelEnd => [3, 0, 0, 0]

/-- The content of a slot, in the order of R87: 0 EMPTY, 1 UNKNOWN, 2 ITEM; its item and its state. -/
def slotContentBytes : SlotContent → List Byte
  | .empty => [0] ++ bytes16 (itemCode none) ++ [absentCode]
  | .unknown => [1] ++ bytes16 (itemCode none) ++ [absentCode]
  | .item i st => [2] ++ bytes16 (itemCode (some i)) ++ [placeCode slotStates st]

/-- A slot record: its position, its content, the stray and the judged flag. -/
def slotBytes (p : Nat × Slot) : List Byte :=
  byteOf p.1 ++ slotContentBytes p.2.content ++ [flagBits [p.2.stray, p.2.judged]]

/-- A record of ITEM_READ: the step and the image as an item, the state, the tries, the reason and the absent flag (R78); a
record flagged absent names its step and image all the same (notes/assumptions/45.md). -/
def itemRecordBytes (p : Nat × Nat × ItemRecord × Bool) : List Byte :=
  bytes16 (BitVec.ofNat 16 (p.1 + 4096 * (p.2.1 - 1) + 32768)) ++ [placeCode itemStates p.2.2.1.state] ++
    byteOf p.2.2.1.tries ++ [placeCode? reasons p.2.2.1.reason, flagByte p.2.2.2]

/-- The settings of a channel, as SET_CHANNEL lays them out (R185). -/
def channelBytes (c : ChannelSettings) : List Byte :=
  (match c.mode with
   | .angle on off => [0] ++ angleBytes on ++ angleBytes off ++ [0, 0]
   | .edge source sense delay width =>
     [1] ++ byteOf source.val ++ [placeCode senses sense] ++ word16Of delay ++ word16Of width) ++ word16Of c.limit

/-- The settings of a window; an absent input is 255, an absent class 0. -/
def windowBytes (w : WindowSettings) : List Byte :=
  [placeCode windowRoles w.role] ++
    (match w.input with
     | some i => byteOf i.val
     | none => [absentCode]) ++
    [placeCode windowEdges w.edge] ++ angleBytes w.lo ++ angleBytes w.hi ++
    [match w.cls with
     | some c => classCode c
     | none => 0] ++ byteOf w.burst

/-- What STATUS shows of one axis. -/
def axisViewBytes (v : AxisView) : List Byte :=
  [placeCode axisStates v.state] ++ signedOf v.commanded ++
    (match v.feedback with
     | some f => signedOf f
     | none => [])

/-- The mode of the run, the panels remaining and the continue flag; absent when no run is active. -/
def runBytes : Option RunRecord → List Byte
  | some r => [placeCode runModes r.mode] ++ byteOf r.remaining ++ [flagByte r.cont]
  | none => [absentCode, absentCode, 0]

/-- The snapshot of STATUS, in the order of R184. -/
def snapshotBytes (s : Snapshot) : List Byte :=
  viewBytes s.view ++ runBytes s.run ++
    ([flagByte s.panel.isSome, placeCode? runModes s.panel] ++ bytes16 s.panelNumber ++
      [flagBits [s.boardChanged, s.boardAway]]) ++
    countBytes s.counts ++
    (bytes16 s.cycle ++ angleBytes s.angle ++ [flagByte s.synced] ++ word16Of s.period ++ [flagByte s.periodValid]) ++
    s.axes.flatMap axisViewBytes ++
    levelBits s.inputs ++ [flagBits s.homeInputs, flagBits [s.limit, s.stopLine, s.locked]] ++
    ([placeCode lampStates s.green, placeCode lampStates s.amber, placeCode lampStates s.red,
      flagBits [s.horn, s.warnPending, s.captureLocked]] ++ byteOf s.warnCount)

/-- A fault record, as a FAULT report lays it out behind its flags (R156, R185). -/
def recordBytes (r : FaultRecord) : List Byte := (faultPayload r false false).tail

/-! ### Replies (R177) -/

/-- The fields of a reply, behind its status. A number that stands alone in a reply takes two bytes whatever its range
(notes/assumptions/36.md). -/
def bodyBytes : ReplyBody → List Byte
  | .empty => []
  | .identity name revision steps tapeEntries dispensers windows channels redo reports payload baud =>
    name ++ byteOf revision ++ word16Of steps ++ word16Of tapeEntries ++ byteOf dispensers ++ byteOf windows ++
      byteOf channels ++ byteOf redo ++ byteOf reports ++ byteOf payload ++ byteOf baud
  | .snapshot s => snapshotBytes s
  | .byte b => [b]
  | .landmarks p =>
    angleBytes p.close ++ angleBytes p.commit ++ angleBytes p.opening ++ angleBytes p.index ++ angleBytes p.fire ++
      angleBytes p.verifyClose ++ angleBytes p.offset ++ byteOf p.tolerance ++ word16Of p.nominal ++ word16Of p.stall
  | .channel n c staged => byteOf n.val ++ channelBytes c ++ [flagByte staged]
  | .window n w staged => byteOf n ++ windowBytes w ++ [flagByte staged]
  | .windowInput n count => byteOf n.val ++ byteOf count
  | .number n => word16Of n
  | .axis a r =>
    [placeCode axisNames a, placeCode outputStyles r.style] ++ word16Of r.homeOffset.toNat ++ word16Of r.searchLimit ++
      byteOf r.following ++ rateBytes r.rates ++ rateBytes r.staged ++ [flagByte r.stagedFlag]
  | .stations q v r => byteOf q ++ byteOf v ++ byteOf r
  | .thresholds depletion suspect => byteOf depletion ++ byteOf suspect
  | .dispenser n d =>
    byteOf n ++ byteOf d.position ++ [placeCode dispenserClasses d.cls, placeCode dispenserStates d.state] ++
      historyBytes d.history ++ byteOf d.failures
  | .span code position => byteOf code ++ word16Of position
  | .geometry hx hy settle margin => word16Of hx.toNat ++ word16Of hy.toNat ++ byteOf settle ++ byteOf margin
  | .cursor c => word16Of c.position ++ [placeCode advances c.mode]
  | .stepRecords first records => stepRecordsBytes first records
  | .panel p staged =>
    byteOf p.count ++ [p.image1, p.image2, p.image3, p.image4].flatMap imageBytes ++ bytes16 p.ox ++ bytes16 p.oy ++
      byteOf p.maxTries ++ [flagByte staged]
  | .items records => byteOf records.length ++ records.flatMap itemRecordBytes
  | .tapePosition position reel => word16Of position ++ [placeCode reelStates reel]
  | .tapeWritten count length => byteOf count ++ word16Of length
  | .tapeEntries length position reel entries =>
    word16Of length ++ word16Of position ++ [placeCode reelStates reel] ++ byteOf entries.length ++
      entries.flatMap fun p => word16Of p.1 ++ entryBytes p.2.1 ++ [flagByte p.2.2]
  | .machine m => [machineStateCode m]
  | .causes stopLine limit lock => [flagBits [stopLine, limit, lock]]
  | .slots slots => byteOf slots.length ++ slots.flatMap slotBytes
  | .redo items => byteOf items.length ++ items.flatMap fun p => bytes16 (itemCode (some p.1)) ++ byteOf p.2
  | .capture c =>
    [flagBits [c.locked, c.content.isSome, (c.content.map (·.synced)).getD false]] ++ byteOf c.later ++
      (match c.content with
       | some r => recordBytes r
       | none => [])
  | .distance d => signedOf d
  | .force force output => [flagByte force, flagByte output]

/-- The payload of a reply: the status, then its fields (R177). -/
def replyPayload (r : Reply) : List Byte := statusCode r.status :: bodyBytes r.body

/-- The frame of a reply (R174). -/
def replyFrame (r : Reply) : List Byte := frameOf r.kind.toNat (replyPayload r)

/-! ### Reports (R179, R180) -/

/-- The kind code of a report: 64 and up, in the order of the mask bits (R179). -/
def reportKind (r : Report) : Nat := 64 + r.bit

/-- The fields of a report, behind its flags byte. FAULT and CYCLE carry flags of their own beside the overflow flag. -/
def reportPayload (overflow : Bool) : Report → List Byte
  | .state v =>
    [flagByte overflow] ++ viewBytes v ++
      (match v.run with
       | some (mode, remaining) => [placeCode runModes mode] ++ byteOf remaining
       | none => [absentCode, absentCode])
  | .fault record entered => faultPayload record entered overflow
  | .cycle number item outcome period valid captures => cyclePayload number item outcome period valid captures overflow
  | .panel number mode ending items counts =>
    [flagByte overflow] ++ bytes16 number ++ [placeCode runModes mode, placeCode panelEndings ending] ++ word16Of items ++
      countBytes counts
  | .dispenser number state cause history =>
    [flagByte overflow] ++ byteOf number ++ [placeCode dispenserStates state, placeCode dispenserCauses cause] ++
      historyBytes history
  | .homeDone result kind => [flagByte overflow, placeCode doneResults result, kindCode? kind]
  | .testDone t =>
    [flagByte overflow, placeCode serviceNames t.operation, placeCode doneResults t.result, kindCode? t.kind,
     placeCode? axisNames t.axis, placeCode? loopModes t.intern] ++
      byteOf (t.moves.getD 255) ++ byteOf (t.mismatches.getD 255) ++ signedOf (t.value.getD 0)
  | .tape cause position length reel mapPosition =>
    [flagByte overflow, placeCode tapeCauses cause] ++ word16Of position ++ word16Of length ++
      [placeCode reelStates reel] ++ word16Of (mapPosition.getD 65535)

/-- The frame of a report (R174). -/
def reportFrame (r : Report) (overflow : Bool) : List Byte := frameOf (reportKind r) (reportPayload overflow r)

/-! ### The line -/

/-- The bytes of a frame on the line (R174). -/
def LineFrame.bytes : LineFrame → List Byte
  | .reply r => replyFrame r
  | .report r overflow => reportFrame r overflow

/-- The bytes of the frame that the transmitter has put on the line last. -/
def sentFrame (s : State) : Option (List Byte) := s.lnk.line.map LineFrame.bytes

end Sys2Proof.Machine
end

