-- ==== Sys2Proof/Machine/Pins.lean ====
section
/-! DEFINITION. The output pins, read from the state: what the machine and the operator see between commands (R3, R4, R36, R82,
R95, R96, R117, R128, R169, R171). -/

namespace Sys2Proof.Machine

/-! ### Shaft and channels -/

/-- CLUTCH_TRIP (R3). -/
def pinClutchTrip (s : State) : Bool := s.msv.trip

/-- BRAKE, high while applied (R4). -/
def pinBrake (s : State) : Bool := s.msv.brake

/-- The output pin of a channel (R36, R37). -/
def pinChannel (i : ChannelNo) (s : State) : Bool := channelOutput i s.stu.channels[i]

/-! ### The dispenser bus (R95) -/

/-- DSP_DATA: the bit for dispenser 47 first, one bit for every 10 microseconds; low after the last
(notes/assumptions/23.md). -/
def pinDspData (s : State) : Bool :=
  match s.sqc.dsp with
  | some d => decide (d.elapsed < Config.dspShiftTime) && d.frame.contains (47 - d.elapsed / Config.dspBitTime)
  | none => false

/-- DSP_CLK: it rises in the middle of each bit (notes/assumptions/23.md). -/
def pinDspClk (s : State) : Bool :=
  match s.sqc.dsp with
  | some d => decide (d.elapsed < Config.dspShiftTime ∧ Config.dspBitTime / 2 ≤ d.elapsed % Config.dspBitTime)
  | none => false

/-- DSP_LOAD: high for 10 microseconds after the shift. -/
def pinDspLoad (s : State) : Bool :=
  match s.sqc.dsp with
  | some d => decide (Config.dspShiftTime ≤ d.elapsed ∧ d.elapsed < Config.dspLoadEnd)
  | none => false

/-- DSP_FIRE: high for 2 ms after the load. -/
def pinDspFire (s : State) : Bool :=
  match s.sqc.dsp with
  | some d => decide (Config.dspLoadEnd ≤ d.elapsed)
  | none => false

/-- VSEL, six lines (R96). -/
def pinVsel (s : State) : BitVec 6 := BitVec.ofNat 6 s.sqc.vsel

/-! ### The handler and the re-taper -/

/-- BOARD_RELEASE (R82). -/
def pinBoardRelease (s : State) : Bool := s.pgs.boardRelease.isSome

/-- TAPE_GAP (R117). -/
def pinTapeGap (s : State) : Bool := s.tmu.gap.isSome

/-- TAPE_GAP_2: high for the pulse when both entries were written (R117). -/
def pinTapeGap2 (s : State) : Bool :=
  match s.tmu.gap with
  | some (two, _) => two
  | none => false

/-! ### Pulse outputs (R128) -/

/-- PA of an axis: one pulse for each step in STEP_DIR, the pulses of positive steps in CW_CCW. -/
def pinPA (a : Axis) (s : State) : Bool :=
  let r := s.mot.axis a
  match r.style with
  | .stepDir => decide (0 < r.pulse.high)
  | .cwCcw => decide (0 < r.pulse.high) && r.pulse.positive

/-- PB of an axis: the direction level in STEP_DIR, held after the motion; the pulses of negative steps in CW_CCW. -/
def pinPB (a : Axis) (s : State) : Bool :=
  let r := s.mot.axis a
  match r.style with
  | .stepDir => r.dirHigh
  | .cwCcw => decide (0 < r.pulse.high) && !r.pulse.positive

/-! ### Horn and lamps -/

/-- HORN (R169). -/
def pinHorn (s : State) : Bool := s.fau.horn

/-- LAMP_GREEN (R171). -/
def pinGreen (s : State) : Bool := lampLevel (lampGreen s) s

/-- LAMP_AMBER (R171). -/
def pinAmber (s : State) : Bool := lampLevel (lampAmber s) s

/-- LAMP_RED (R171). -/
def pinRed (s : State) : Bool := lampLevel (lampRed s) s

end Sys2Proof.Machine
end

