-- ==== Sys2Proof/WellFormed.lean ====
section
/-! DEFINITION. Well-formed commands: the list requests carry 1 to 32 records (R69, R111), and the events that name a request kind
name one from 1 to 63 (R175), an unassigned or a service kind for UNASSIGNED_KIND (R177). Every other command is well formed
whatever its operands, since its field widths are those of its type. -/

namespace Sys2Proof

/-- A list request carries 1 to 32 records. -/
def recordsFit {α : Type} (l : List α) : Bool := decide (1 ≤ l.length ∧ l.length ≤ 32)

/-- A kind that a request may have: 1 to 63. -/
def isRequestKind (k : Byte) : Bool := decide (1 ≤ k.toNat ∧ k.toNat ≤ 63)

/-- The well-formedness of a command. -/
def Instr.wellFormed : Instr → Bool
  | .stepWrite l => recordsFit l
  | .tapemapWrite l => recordsFit l
  | .unassignedKind k => isRequestKind k && (!kindAssigned k.toNat || serviceKind k.toNat)
  | .waitingRequest k => isRequestKind k
  | _ => true

end Sys2Proof
end

