-- ==== Sys2Proof/Safety.lean ====
section
/-! DEFINITION. The words in which the statements speak: a link that is free to take a request, a request answered, and a
sound state, block by block: the bounds, orders and canonical forms that every step keeps. -/

namespace Sys2Proof.Machine

/-! ### The link -/

/-- The link can take a request at once: none in service or waiting, no speed switch due, the framer in HUNT with no byte
held (R175, R176). -/
abbrev linkReady (s : State) : Prop :=
  s.lnk.inService = none ∧ s.lnk.waiting = none ∧ s.lnk.baudDue = none ∧ s.lnk.framer = .hunt ∧ s.lnk.heldBytes = [] ∧
    s.lnk.gapTimer = none

/-- A request of a kind has been taken into service and its reply, of that kind plus 128, has been formed (R176, R177). -/
def answered (kind : Byte) (st : Status) (body : ReplyBody) (s : State) : State :=
  { s with lnk := { s.lnk with inService := some kind, reply := some { kind := kind + 128, status := st, body := body } } }

/-- A request of a kind has been taken into service, and its owner is about to act. -/
def taken (kind : Byte) (s : State) : State := { s with lnk := { s.lnk with inService := some kind } }

/-! ### Sound states -/

/-- The Machine Supervisor: the trip on releases the brake (R4); a run record is held exactly in RUNNING and STOPPING (R15,
R17); the finishing flag only in CYCLING and STOPPING (R1); a HOME is in flight exactly in HOMING (R1). -/
structure Msv.Sound (m : Msv) : Prop where
  brake : m.trip = true → m.brake = false
  run : m.run.isSome = (m.state == .running .cycling || m.state == .running .dwell || m.state == .stopping)
  finishing : m.finishing = true → m.state = .running .cycling ∨ m.state = .stopping
  home : m.home.isSome = (m.state == .homing)

/-- The Shaft Timing Unit: its counts hold at 65,535 (R25, R26, R29). -/
structure Stu.Sound (u : Stu) : Prop where
  travel : u.travel ≤ 65535
  retrace : u.retrace ≤ 65535
  excursion : u.excursion ≤ 65535
  period : u.period ≤ 65535
  timer : ∀ n, u.periodTimer = some n → n ≤ 65535

/-- The Window Monitor: filter counts from 1 to 15 (R49), histories of at most 16 results (R56), a skew limit of at most
1,023 (R61). -/
structure Wmu.Sound (w : Wmu) : Prop where
  filters : ∀ i : InputNo, 1 ≤ w.filterCounts[i] ∧ w.filterCounts[i] ≤ 15
  histories : ∀ n : Fin 12, w.windows[n].history.length ≤ 16
  skew : w.skewLimit ≤ 1023

/-- A panel setup that PANEL_SET accepts (R73). -/
structure PanelSetup.Sound (p : PanelSetup) : Prop where
  count : 1 ≤ p.count ∧ p.count ≤ 4
  enabled : p.image1.enabled = true ∨ p.image2.enabled = true ∨ p.image3.enabled = true ∨ p.image4.enabled = true
  tries : 1 ≤ p.maxTries ∧ p.maxTries ≤ 7

/-- The Program Store: both panel setups are acceptable, the item state table is in its canonical form. -/
structure Pgs.Sound (p : Pgs) : Prop where
  active : p.active.Sound
  staged : ∀ q, p.staged = some q → q.Sound
  items : Table.wf ItemRecord.fresh p.items = true

/-- The Sequencer Controller: the station map's conditions on Q, V and R (R86), one slot for each position to Q (R87), at
most 16 items in the redo queue (R100), histories of at most 8 verdicts and failure counts of at most 255 (R102), positions
from 1 to 96 (R101). -/
structure Sqc.Sound (q : Sqc) : Prop where
  map : 8 ≤ q.q ∧ q.q ≤ 96 ∧ 2 ≤ q.v ∧ q.v < q.r ∧ q.r < q.q
  chain : q.chain.length = q.q
  redo : q.redo.length ≤ 16
  histories : ∀ n : Fin 48, q.dispensers[n].history.length ≤ 8
  failures : ∀ n : Fin 48, q.dispensers[n].failures ≤ 255
  positions : ∀ n : Fin 48, 1 ≤ q.dispensers[n].position ∧ q.dispensers[n].position ≤ 96

/-- The Tape Map Unit: the map in its canonical form, its length, the tape position and the cursor within 4,096 (R110,
R111). -/
structure Tmu.Sound (t : Tmu) : Prop where
  map : Table.wf TapeEntry.blank t.map = true
  length : t.mapLength ≤ 4096
  position : t.position ≤ 4096
  cursor : t.cursor.position ≤ 4096

/-- Rates that SET_AXIS takes (R130). -/
structure Rates.Sound (r : Rates) : Prop where
  rs : 1 ≤ r.rs ∧ r.rs ≤ 8
  rt : r.rs ≤ r.rt ∧ r.rt ≤ 40
  a : 1 ≤ r.a ∧ r.a ≤ 8

/-- A position an axis can hold: ROT modulo 6,400, the others from −65,536 to 131,071 (R126). -/
abbrev positionHeld (a : Axis) (p : Int) : Prop :=
  match a with
  | .rot => 0 ≤ p ∧ p < 6400
  | _ => -65536 ≤ p ∧ p ≤ 131071

/-- An axis record: rates in range, its home offset within the soft limits, its positions within what it can hold (R126,
R130). -/
structure AxisRec.Sound (a : Axis) (r : AxisRec) : Prop where
  rates : r.rates.Sound
  staged : r.staged.Sound
  offset : 0 ≤ r.homeOffset ∧ r.homeOffset ≤ (softLimit a).getD 6399
  search : 1 ≤ r.searchLimit ∧ r.searchLimit ≤ 65535
  following : 1 ≤ r.following ∧ r.following ≤ 255
  commanded : positionHeld a r.commanded
  feedback : positionHeld a r.feedback

/-- The Motion Unit: its four axis records, and the positions that a loop test has saved (R193). -/
structure Mot.Sound (m : Mot) : Prop where
  axis : ∀ a, (m.axis a).Sound a
  saved : ∀ a n k w b c f e, m.service = some (.loop a n k w b c f e) → positionHeld .x c ∧ positionHeld .x f

/-- The Fault and Alarm Unit: its counts hold at 255 (R158, R163), a locked capture record has content (R163), each half of
the flash clock is shorter than 500 ms (R171). -/
structure Fau.Sound (f : Fau) : Prop where
  warnings : f.warnCount ≤ 255
  later : f.capture.later ≤ 255
  content : f.capture.locked = true → f.capture.content.isSome = true
  flash : f.flashTimer < 500

/-- The Serial Link Interface: at most 24 reports wait (R181); a speed code from 0 to 3 (R173). -/
structure Lnk.Sound (l : Lnk) : Prop where
  queue : l.queue.length ≤ 24
  baud : l.baud ≤ 3
  next : ∀ b, l.baudNext = some b → b ≤ 3
  due : ∀ b, l.baudDue = some b → b ≤ 3

/-- The downloaded settings: the landmarks in the order of their list from 1 up (R33), the ranges of R33, R67, R68, R72,
R102 and R135, the tables in their canonical form. -/
structure Store.Sound (t : Store) : Prop where
  order : 0 < t.landmarks.close.toNat ∧ t.landmarks.close < t.landmarks.commit ∧
    t.landmarks.commit < t.landmarks.opening ∧ t.landmarks.opening < t.landmarks.index ∧
    t.landmarks.index < t.landmarks.fire ∧ t.landmarks.fire < t.landmarks.verifyClose
  tolerance : t.landmarks.tolerance ≤ 15
  nominal : 2000 ≤ t.landmarks.nominal ∧ t.landmarks.nominal ≤ 65535
  stall : 20 ≤ t.landmarks.stall ∧ t.landmarks.stall ≤ 2000
  steps : Table.wf StepRecord.reset t.steps = true
  stepCount : t.stepCount ≤ 1024
  stepCursor : t.stepCursor.position ≤ 1024
  spans : Table.wf spanReset t.spans = true
  thresholds : 1 ≤ t.depletion ∧ t.depletion ≤ 8 ∧ 2 ≤ t.suspect ∧ t.suspect ≤ 8
  head : 0 ≤ t.hx ∧ t.hx ≤ 45000 ∧ 0 ≤ t.hy ∧ t.hy ≤ 36000
  times : t.settleTime ≤ 50 ∧ t.fitMargin ≤ 20

/-- The blocks of a state are sound. -/
structure Blocks (s : State) : Prop where
  msv : s.msv.Sound
  stu : s.stu.Sound
  wmu : s.wmu.Sound
  pgs : s.pgs.Sound
  sqc : s.sqc.Sound
  tmu : s.tmu.Sound
  mot : s.mot.Sound
  fau : s.fau.Sound
  lnk : s.lnk.Sound
  store : s.store.Sound

/-- A sound state: its blocks are sound, and between events no report is held back (R1). -/
structure Sound (s : State) : Prop where
  blocks : Blocks s
  trailing : s.lnk.trailing = []

/-! ### Requests that write settings -/

/-- The requests that write the settings that Store holds; a full reset restores them. -/
def writesStore : Instr → Bool
  | .fullReset => true
  | .setLandmarks _ => true
  | .setStationsThreshold _ _ => true
  | .setSpan _ _ => true
  | .setGeometry _ => true
  | .stepCursor _ _ => true
  | .stepWrite _ => true
  | .stepRead _ => true
  | .stepCount _ => true
  | .receivedByte _ => true
  | .frameDiscard _ => true
  | .frameGapTimeout => true
  | .framingError => true
  | _ => false

end Sys2Proof.Machine
end

