-- ==== Sys2Proof/Certificates/Slice0/Obligations.lean ====
section
/-! DEFINITION. The statements for the provers. Each says which rules of spec/ it follows; OBLIGATIONS.json lists them. -/

open Sys2Proof Sys2Proof.Machine

/-! ### The queue, the resets, the reports -/

/-- A step runs the command at the front of the queue with the rest of the queue; with none waiting the clock runs on by a
microsecond, which is the model's choice (notes/assumptions/1.md). -/
def Obligations.StepRunsTheFrontCommand : Prop :=
  (∀ (c : Instr) (rest : List Instr) (s : State), s.pending = c :: rest → step s = exec c (s.withPending rest)) ∧
    (∀ s : State, s.pending = [] → step s = .next (tick s))

/-- What the part holds right after a full reset, block by block (R23, R33, R36, R46, R66, R67, R72, R85, R101, R102, R109,
R124, R126, R135, R142, R172, R186), and the pins. The values that the model chose are not among them.
FULL_RESET from any state leaves the state after reset, but for the levels that stand at the pins of the inputs, the
queue of commands and the counter of the free values; every accepted level is low and every candidate count 0 (R23, R46, R66, R109,
R142, R172).
That the pins stay is the model's choice (notes/assumptions/5.md). -/
def Obligations.ResetHoldsTheSpecifiedValues : Prop :=
  (
    let s := State.reset
    (s.msv.state = .unhomed ∧ s.msv.finishing = false ∧ s.msv.trip = false ∧ s.msv.brake = true ∧ s.msv.dwell = .none ∧
      s.msv.run = none ∧ s.msv.atRest = true ∧ s.msv.offHome = true ∧ s.msv.home = none ∧ s.msv.single = none ∧
      s.msv.faultPending = false) ∧
    (s.stu.angle = 0 ∧ s.stu.synced = false ∧ s.stu.travel = 2048 ∧ s.stu.retrace = 0 ∧ s.stu.excursion = 0 ∧
      s.stu.indexInput.accepted = false ∧ s.stu.pointer = some .close ∧ s.stu.period = 0 ∧ s.stu.periodValid = false ∧
      s.stu.periodTimer = none ∧ s.stu.engaged = false ∧ s.stu.stallTimer = none ∧ s.stu.cycle = 0) ∧
    (∀ i : ChannelNo, s.stu.channels[i].command = false ∧ s.stu.channels[i].force = false ∧
      s.stu.channels[i].trigger = .spent ∧ s.stu.channels[i].onTimer = 0 ∧ s.stu.channels[i].locked = false ∧
      s.stu.channels[i].releaseTimer = 0 ∧ s.stu.channels[i].staged = none ∧ pinChannel i s = false) ∧
    (s.stu.channels.toList.map (·.active) =
      [⟨.angle 128 1600, 300⟩, ⟨.angle 384 640, 300⟩, ⟨.angle 640 1024, 300⟩, ⟨.angle 1024 1792, 300⟩,
       ⟨.angle 1536 2304, 150⟩, ⟨.angle 2048 2304, 300⟩, ⟨.edge 4 .rise 64 256, 300⟩, ⟨.angle 3072 3328, 300⟩,
       ⟨.angle 3072 3328, 300⟩]) ∧
    (s.store.landmarks = { close := 640, commit := 2240, opening := 2432, index := 3072, fire := 3584, verifyClose := 3968
                           offset := 0, tolerance := 4, nominal := 15000, stall := 200 }) ∧
    (∀ i : InputNo, s.wmu.inputs[i].accepted = false ∧ s.wmu.inputs[i].candidate = 0 ∧ s.wmu.filterCounts[i] = 3) ∧
    (∀ n : Fin 12, s.wmu.windows[n].active.role = .unused ∧ s.wmu.windows[n].staged = none ∧
      s.wmu.windows[n].isOpen = false ∧ s.wmu.windows[n].capture = none ∧ s.wmu.windows[n].lastCapture = none ∧
      s.wmu.windows[n].mark = false ∧ s.wmu.windows[n].history = []) ∧
    (s.wmu.skewLimit = 0 ∧ s.wmu.head.content = .unknown ∧ s.wmu.head.record = none ∧ s.wmu.head.good = false ∧
      s.wmu.head.partMissed = false ∧ s.wmu.head.driveDone = false ∧ s.wmu.head.ejectMark = false ∧
      s.wmu.head.ejectDone = false ∧ s.wmu.head.lead1 = .none ∧ s.wmu.head.lead2 = .none) ∧
    (∀ n, stepAt n s = { x := 0, y := 0, rot := 0, span := 0, dispenser := 0, barrier := false, skip := false }) ∧
    (s.store.stepCount = 0 ∧ s.store.stepCursor = { position := 0, mode := .hold } ∧
      (∀ code, Table.read spanReset s.store.spans code = 1000) ∧ s.pgs.active.count = 1 ∧
      s.pgs.active.image1 = { dx := 0, dy := 0, enabled := true } ∧ s.pgs.active.ox = 0 ∧ s.pgs.active.oy = 0 ∧
      s.pgs.active.maxTries = 3 ∧ s.pgs.staged = none ∧ workList s = [] ∧ s.pgs.panel = none ∧ s.pgs.number = 0 ∧
      s.pgs.boardChanged = false ∧ s.pgs.boardAway = false ∧ pinBoardRelease s = false) ∧
    (s.sqc.q = 56 ∧ s.sqc.v = 50 ∧ s.sqc.r = 52 ∧ s.store.depletion = 3 ∧ s.store.suspect = 2 ∧
      s.sqc.chain = List.replicate 56 { content := .unknown, stray := false, judged := false } ∧ s.sqc.redo = [] ∧
      s.sqc.frame = none ∧ s.sqc.verdict = .closed ∧ s.sqc.vsel = 63 ∧ s.sqc.vstrobe.accepted = false ∧
      s.sqc.vstrobe.candidate = 0 ∧ s.sqc.dsp = none) ∧
    (∀ d : Fin 48, s.sqc.dispensers[d] =
      { position := d.val + 1, cls := .plain, state := .disabled, history := [], failures := 0 }) ∧
    ((∀ n, entryAt n s = .blank) ∧ s.tmu.mapLength = 0 ∧ s.tmu.cursor = { position := 0, mode := .hold } ∧
      s.tmu.position = 0 ∧ s.tmu.jammed = false ∧ reelState s = .ready ∧ s.tmu.mark = none ∧ s.tmu.lastTaped = none ∧
      s.tmu.mapEnd = false ∧ pinTapeGap s = false ∧ pinTapeGap2 s = false) ∧
    (∀ a : Axis, (s.mot.axis a).state = .unhomed ∧ (s.mot.axis a).commanded = 0 ∧ (s.mot.axis a).feedback = 0 ∧
      (s.mot.axis a).rates = { rs := 2, rt := 20, a := 2 } ∧ (s.mot.axis a).staged = { rs := 2, rt := 20, a := 2 } ∧
      (s.mot.axis a).stagedFlag = false ∧ (s.mot.axis a).style = .stepDir ∧ (s.mot.axis a).homeOffset = 0 ∧
      (s.mot.axis a).searchLimit = 50000 ∧ (s.mot.axis a).following = 8 ∧ (s.mot.axis a).homePending = false ∧
      (s.mot.axis a).homeInput.accepted = false ∧ (s.mot.axis a).drive = .idle ∧ pinPA a s = false ∧ pinPB a s = false) ∧
    (s.mot.cAxis = none ∧ s.mot.running = none ∧ s.mot.held = none ∧ s.mot.settle = none ∧
      s.mot.limit.accepted = false ∧ s.store.hx = 22000 ∧ s.store.hy = 18000 ∧ s.store.settleTime = 5 ∧
      s.store.fitMargin = 2) ∧
    (s.fau.capture = { content := none, locked := false, later := 0 } ∧ s.fau.warnPending = false ∧ s.fau.warnCount = 0 ∧
      s.fau.horn = false ∧ s.fau.flashOn = true ∧ s.fau.stopLine.accepted = false ∧ pinGreen s = false ∧
      pinAmber s = false ∧ pinRed s = false) ∧
    (s.lnk.baud = 1 ∧ s.lnk.framer = .hunt ∧ s.lnk.heldBytes = [] ∧ s.lnk.inService = none ∧ s.lnk.waiting = none ∧
      s.lnk.queue = [.state { state := .unhomed, finishing := false, dwell := .none, run := none }] ∧
      s.lnk.overflow = false ∧ (∀ r : Report, s.lnk.mask.getLsbD r.bit = decide (r.bit ≠ 2)))) ∧
  (∀ s : State, exec .fullReset s =
      .next { State.reset with
        stu := { Stu.reset with indexInput := ⟨s.stu.indexInput.raw, false, 0⟩ }
        wmu := { Wmu.reset with inputs := s.wmu.inputs.map fun f => ⟨f.raw, false, 0⟩ }
        sqc := { Sqc.reset with vstrobe := ⟨s.sqc.vstrobe.raw, false, 0⟩, vcode := s.sqc.vcode }
        mot := { Mot.reset with
          x := { AxisRec.reset with homeInput := ⟨s.mot.x.homeInput.raw, false, 0⟩ }
          y := { AxisRec.reset with homeInput := ⟨s.mot.y.homeInput.raw, false, 0⟩ }
          span := { AxisRec.reset with homeInput := ⟨s.mot.span.homeInput.raw, false, 0⟩ }
          rot := { AxisRec.reset with homeInput := ⟨s.mot.rot.homeInput.raw, false, 0⟩ }
          limit := ⟨s.mot.limit.raw, false, 0⟩ }
        fau := { Fau.reset with stopLine := ⟨s.fau.stopLine.raw, false, 0⟩ }
        clock := { micro := 0, choice := s.clock.choice }
        pending := s.pending })

/-- RESTART answers OK and leaves, in every state whose stop chain is closed: the supervisor as after full reset with the
shaft's rest as it stood; the angle, the index input and the period kept, the angle unsynchronized; pending settings
adopted with commands, forces and locks off; the inputs kept with the windows closed and the head load unknown; the panel
closed; the chain unknown; the axes unhomed where they stand; the capture record and the warnings empty; the report queue
emptied before the reports of the RESTART, HOME_DONE first where a HOME was in flight (R24, R46, R66, R85, R109, R124, R142,
R155, R172, R181, R186).
A stop chain open at RESTART raises STOP_LINE once more, just after it: the machine is HALTED with the brake applied,
the horn on, every axis unhomed, and the capture record holds STOP_LINE with detail value 1 (R168, R172).
That the pins stay, and the order of the two reports, are the model's reading (notes/assumptions/5.md and 40.md). -/
def Obligations.RestartResetsAllButWhatItKeeps : Prop :=
  (∀ s : State, linkReady s → s.fau.stopLine.accepted = false →
      ∃ t, exec .restart s = .next (answered 3 .ok .empty t) ∧
        t.msv = { Msv.reset with atRest := s.msv.atRest, restTimer := s.msv.restTimer } ∧
        (t.stu.angle = s.stu.angle ∧ t.stu.synced = false ∧ t.stu.travel = 2048 ∧ t.stu.retrace = 0 ∧
          t.stu.excursion = 0 ∧ t.stu.indexInput = s.stu.indexInput ∧ t.stu.pointer = some .close ∧
          t.stu.period = s.stu.period ∧ t.stu.periodValid = false ∧ t.stu.periodTimer = none ∧ t.stu.engaged = false ∧
          t.stu.stallTimer = none ∧ t.stu.cycle = 0) ∧
        (∀ i : ChannelNo, t.stu.channels[i].active = s.stu.channels[i].staged.getD s.stu.channels[i].active ∧
          t.stu.channels[i].staged = none ∧ channelOutput i t.stu.channels[i] = false ∧
          t.stu.channels[i].command = false ∧ t.stu.channels[i].force = false ∧ t.stu.channels[i].locked = false ∧
          t.stu.channels[i].onTimer = 0 ∧ t.stu.channels[i].releaseTimer = 0 ∧ t.stu.channels[i].trigger = .spent) ∧
        (t.wmu.inputs = s.wmu.inputs ∧ t.wmu.filterCounts = s.wmu.filterCounts ∧ t.wmu.skewLimit = s.wmu.skewLimit ∧
          t.wmu.head = .reset ∧ ∀ n : Fin 12, t.wmu.windows[n] =
            { active := s.wmu.windows[n].staged.getD s.wmu.windows[n].active, staged := none, isOpen := false
              capture := none, lastCapture := none, mark := false, history := [] }) ∧
        (t.pgs.active = s.pgs.active ∧ t.pgs.staged = s.pgs.staged ∧ (∀ i, itemRec i t = .fresh) ∧ t.pgs.panel = none ∧
          t.pgs.number = 0 ∧ t.pgs.boardChanged = false ∧ t.pgs.boardAway = s.pgs.boardAway ∧
          (∀ n, s.pgs.boardRelease = some n → t.pgs.boardRelease = some n) ∧
          (s.pgs.boardRelease = none → t.pgs.boardRelease =
            if s.pgs.panel = some .direct ∨ s.pgs.panel = some .tapeIn then some 0 else none)) ∧
        (t.sqc.q = s.sqc.q ∧ t.sqc.v = s.sqc.v ∧ t.sqc.r = s.sqc.r ∧
          t.sqc.chain = List.replicate s.sqc.q { content := .unknown, stray := false, judged := false } ∧
          t.sqc.redo = [] ∧ t.sqc.frame = none ∧ t.sqc.dsp = none ∧ t.sqc.verdict = .closed ∧ t.sqc.vsel = 63 ∧
          t.sqc.vstrobe = s.sqc.vstrobe ∧ ∀ d : Fin 48, t.sqc.dispensers[d] =
            { s.sqc.dispensers[d] with history := [], failures := 0 }) ∧
        t.tmu = { s.tmu with mark := none, lastTaped := none, mapEnd := false } ∧
        (∀ a : Axis, t.mot.axis a = { s.mot.axis a with state := .unhomed, homePending := false, drive := .idle, tick := {} }) ∧
        (t.mot.cAxis = none ∧ t.mot.cGap = none ∧ t.mot.running = none ∧ t.mot.held = none ∧ t.mot.settle = none ∧
          t.mot.service = none ∧ t.mot.serviceSettle = none ∧ t.mot.settled = false ∧ t.mot.limit = s.mot.limit) ∧
        t.fau = { s.fau with capture := .reset, warnPending := false, warnCount := 0, horn := false } ∧
        t.lnk = { s.lnk with inService := some 3, overflow := false, trailing := []
                             queue := ([.homeDone .aborted none, .state (.reset)].filter fun r =>
                               (r == .state .reset || s.msv.home.isSome) && s.lnk.mask.getLsbD r.bit) } ∧
        t.store = s.store ∧ t.clock = s.clock ∧ t.pending = s.pending) ∧
  (∀ s : State, linkReady s → s.fau.stopLine.accepted = true →
      ∃ t, exec .restart s = .next (answered 3 .ok .empty t) ∧ t.msv.state = .halted ∧ t.msv.trip = false ∧
        t.msv.brake = true ∧ t.fau.horn = true ∧ t.fau.warnPending = false ∧
        t.fau.capture =
          { content := some { kind := .stopLine, cls := .h, item := none, chainPos := none, angle := s.stu.angle
                              synced := false, cycle := 0, detail := 1 }
            locked := true, later := 0 } ∧
        (∀ a, (t.mot.axis a).state = .unhomed) ∧ t.store = s.store ∧ t.pending = s.pending)

/-- A report of a kind that the mask disables is not queued; an enabled one joins the end of the queue while fewer than 24
wait, and with 24 waiting it is lost and the overflow flag is set (R181, R182).
The end of an event that holds no report back: it queues one STATE report if it changed the machine state, the
sub-state, the finishing flag or the dwell reason set, with the values after all its changes, and otherwise nothing (R1). -/
def Obligations.ReportsAreQueuedAndEventsClosed : Prop :=
  (∀ (r : Report) (s : State),
      (s.lnk.mask.getLsbD r.bit = false → enqueue r s = s) ∧
      (s.lnk.mask.getLsbD r.bit = true → s.lnk.queue.length < 24 →
        enqueue r s = { s with lnk := { s.lnk with queue := s.lnk.queue ++ [r] } }) ∧
      (s.lnk.mask.getLsbD r.bit = true → 24 ≤ s.lnk.queue.length →
        enqueue r s = { s with lnk := { s.lnk with overflow := true } })) ∧
  (∀ (before : StateView) (t : State), t.lnk.trailing = [] →
      ((t.msv.state ≠ before.state ∨ t.msv.finishing ≠ before.finishing ∨ t.msv.dwell ≠ before.dwell) →
        reportState before t =
          enqueue (.state { state := t.msv.state, finishing := t.msv.finishing, dwell := t.msv.dwell
                            run := t.msv.run.map fun r => (r.mode, r.remaining) }) t) ∧
      ((t.msv.state = before.state ∧ t.msv.finishing = before.finishing ∧ t.msv.dwell = before.dwell) →
        reportState before t = t))

/-- A request whose frame completes finds the line as the end of the last reply leaves it: a due speed is switched to, a
waiting request goes into service and is answered BUSY, the framer is in HUNT (R173, R175, R176). Every request acts as it
would in that state.
With a request in service a further request waits where none waits, and is dropped where one does; neither changes
anything else (R176).
A request that completes with another in service waits where none waits and is dropped where one does (WAITING_REQUEST). With
the reply sent, the waiting request goes into service and is answered BUSY, status only (BUSY); with a request still in
service, or with none waiting, BUSY does nothing (R176).
REPLY_SEND sends the reply that has been formed; its request is no longer in service, and the speed of a SET_BAUD is due.
REPORT_SEND, with no reply formed, sends the oldest report with the overflow flag, which is cleared; with a reply formed or no
report waiting it sends nothing (R173, R176, R180, R181).
Every frame is SYNC, LEN, KIND, the payload and a CHECK that makes the sum behind SYNC 0 modulo 256. A reply's payload begins with its
status; a report has its kind from 64 to 71, and its payload begins with flags whose bit 0 is the overflow flag. The FAULT report is laid
out in 14 bytes, the CYCLE report in 9 and three for each capture (R174, R177, R179, R180, R185).
A request command finds the framer in HUNT and the end of the last reply done by the model's reading (notes/assumptions/15.md
and 16.md); the fields of the other replies and reports are the model's choice (notes/assumptions/36.md). -/
def Obligations.TheLinkTakesOneRequestAtATime : Prop :=
  (∀ (i : Instr) (k : Nat) (p : List Byte) (s : State), encodeRequest i = some (k, p) →
      exec i s = exec i (framerHunt (linkDue s))) ∧
  (∀ (i : Instr) (k : Nat) (p : List Byte) (j : Byte) (s : State), encodeRequest i = some (k, p) → s.lnk.baudDue = none →
      s.lnk.inService = some j →
      exec i s = .next (match s.lnk.waiting with
        | none => { framerHunt s with lnk := { (framerHunt s).lnk with waiting := some (BitVec.ofNat 8 k) } }
        | some _ => framerHunt s)) ∧
  (∀ s : State, s.lnk.baudDue = none →
      (∀ (k j : Byte), 1 ≤ k.toNat → k.toNat ≤ 63 → s.lnk.inService = some j →
        let t := { s with lnk := { s.lnk with framer := .hunt, heldBytes := [], gapTimer := none } }
        (s.lnk.waiting = none →
          exec (.waitingRequest k) s = .next { t with lnk := { t.lnk with waiting := some k } }) ∧
        (s.lnk.waiting.isSome = true → exec (.waitingRequest k) s = .next t)) ∧
      (∀ k, s.lnk.inService = none → s.lnk.waiting = some k →
        exec .busy s = .next { s with lnk := { s.lnk with
          inService := some k, waiting := none, reply := some { kind := k + 128, status := .busy, body := .empty } } }) ∧
      ((s.lnk.inService.isSome = true ∨ s.lnk.waiting = none) → exec .busy s = .next s)) ∧
  (∀ s : State, s.lnk.baudDue = none → (s.lnk.inService.isSome = true ∨ s.lnk.waiting = none) →
      (∀ r, s.lnk.reply = some r →
        exec .replySend s = .next { s with lnk := { s.lnk with
          line := some (.reply r), reply := none, inService := none, baudDue := s.lnk.baudNext, baudNext := none } }) ∧
      (s.lnk.reply = none → exec .replySend s = .next s) ∧
      (∀ r rest, s.lnk.reply = none → s.lnk.queue = r :: rest →
        exec .reportSend s = .next { s with lnk := { s.lnk with
          line := some (.report r s.lnk.overflow), queue := rest, overflow := false } }) ∧
      ((s.lnk.reply.isSome = true ∨ s.lnk.queue = []) → exec .reportSend s = .next s)) ∧
  (
    let kindOf (r : Report) : Nat := match r with
      | .state _ => 64 | .fault .. => 65 | .cycle .. => 66 | .panel .. => 67 | .dispenser .. => 68 | .homeDone .. => 69
      | .testDone _ => 70 | .tape .. => 71
    let two (w : Word16) : List Byte := [w.extractLsb' 0 8, w.extractLsb' 8 8]
    let bits (b c d : Bool) : Byte := (if b then 1 else 0) ||| (if c then 2 else 0) ||| (if d then 4 else 0)
    (∀ kind payload, ∃ check : Byte,
      frameOf kind payload = [165, BitVec.ofNat 8 (payload.length + 1), BitVec.ofNat 8 kind] ++ payload ++ [check] ∧
      BitVec.ofNat 8 (payload.length + 1) + BitVec.ofNat 8 kind + sumBytes payload + check = 0) ∧
    (∀ r : Reply, ∃ fields, replyFrame r = frameOf r.kind.toNat (statusCode r.status :: fields)) ∧
    (∀ r overflow, ∃ flags fields, reportFrame r overflow = frameOf (kindOf r) (flags :: fields) ∧
      flags.getLsbD 0 = overflow) ∧
    (∀ (r : FaultRecord) (entered overflow : Bool),
      let detail := BitVec.ofInt 32 r.detail
      reportFrame (.fault r entered) overflow = frameOf 65 (
        [bits overflow entered r.synced, kindCode r.kind, classCode r.cls] ++ two (itemCode r.item) ++
        [BitVec.ofNat 8 (r.chainPos.getD 0)] ++ two (r.angle.setWidth 16) ++ two r.cycle ++
        [detail.extractLsb' 0 8, detail.extractLsb' 8 8, detail.extractLsb' 16 8, detail.extractLsb' 24 8])) ∧
    (∀ number item outcome period valid captures overflow, ∃ payload,
      reportFrame (.cycle number item outcome period valid captures) overflow = frameOf 66 payload ∧
      payload.length = 9 + 3 * captures.length ∧
      payload.take 9 = [bits overflow valid false] ++ two number ++ two (itemCode item) ++ [outcomeCode outcome] ++
        two (BitVec.ofNat 16 period) ++ [BitVec.ofNat 8 captures.length] ∧
      ∀ j n a, captures[j]? = some (n, a) →
        (payload.drop (9 + 3 * j)).take 3 = BitVec.ofNat 8 n :: two (a.setWidth 16)) ∧
    (∀ i : Item, itemCode (some i) = BitVec.ofNat 16 (i.step.val + 4096 * i.image.val + 32768)) ∧ itemCode none = 0)

/-! ### Requests that read -/

/-- IDENTIFY is answered in every machine state with the part name ZODWEN AX6, revision 1, the capacities and the speed code
in use, and changes nothing (R183). -/
def Obligations.IdentifyNamesThePart : Prop :=
  ∀ s : State, linkReady s →
    exec .identify s =
      .next (answered 1 .ok (.identity [90, 79, 68, 87, 69, 78, 32, 65, 88, 54] 1 1024 4096 48 12 9 16 24 240 s.lnk.baud) s)

/-- STATUS is answered in every machine state with a snapshot of the fields of R184's table as they stand, and changes
nothing (R184). -/
def Obligations.StatusShowsASnapshot : Prop :=
  ∀ s : State, linkReady s →
    exec .status s = .next (answered 2 .ok (.snapshot
      { view := { state := s.msv.state, finishing := s.msv.finishing, dwell := s.msv.dwell
                  run := s.msv.run.map fun r => (r.mode, r.remaining) }
        run := s.msv.run, panel := s.pgs.panel, panelNumber := s.pgs.number, boardChanged := s.pgs.boardChanged
        boardAway := s.pgs.boardAway
        counts :=
          { pending := (workList s).countP fun i => (itemRec i s).state == .pending
            chained := (workList s).countP fun i => (itemRec i s).state == .chained
            redo := (workList s).countP fun i => (itemRec i s).state == .redo
            head := (workList s).countP fun i => (itemRec i s).state == .head
            inserted := (workList s).countP fun i => (itemRec i s).state == .inserted
            suspect := (workList s).countP fun i => (itemRec i s).state == .suspect
            abandoned := (workList s).countP fun i => (itemRec i s).state == .abandoned
            skipped := (workList s).countP fun i => (itemRec i s).state == .skipped
            taped := (workList s).countP fun i => (itemRec i s).state == .taped }
        cycle := s.stu.cycle, angle := s.stu.angle, synced := s.stu.synced, period := s.stu.period
        periodValid := s.stu.periodValid
        axes := [⟨s.mot.x.state, s.mot.x.commanded, some s.mot.x.feedback⟩,
                 ⟨s.mot.y.state, s.mot.y.commanded, some s.mot.y.feedback⟩,
                 ⟨s.mot.span.state, s.mot.span.commanded, none⟩, ⟨s.mot.rot.state, s.mot.rot.commanded, none⟩]
        inputs := s.wmu.inputs.toList.map (·.accepted)
        homeInputs := [s.mot.x.homeInput.accepted, s.mot.y.homeInput.accepted, s.mot.span.homeInput.accepted,
                       s.mot.rot.homeInput.accepted]
        limit := s.mot.limit.accepted, stopLine := s.fau.stopLine.accepted
        locked := s.stu.channels.toList.any (·.locked)
        green := lampGreen s, amber := lampAmber s, red := lampRed s, horn := s.fau.horn
        warnPending := s.fau.warnPending, warnCount := s.fau.warnCount, captureLocked := s.fau.capture.locked }) s)

/-- CAPTURE_READ is answered in every machine state with the capture record as it stands and changes nothing; after a
CLEAR_FAULT that is taken the record still holds the fault that was cleared, with the locked flag clear (R165). -/
def Obligations.CaptureReadShowsTheRecord : Prop :=
  (∀ s : State, linkReady s → exec .captureRead s = .next (answered 42 .ok (.capture s.fau.capture) s)) ∧
    (∀ s : State, linkReady s → causePresent s = false →
      ∃ t, exec .clearFault s = .next t ∧ t.fau.capture = { s.fau.capture with locked := false, later := 0 })

/-- CHAIN_READ: a count outside 1 to 32 or a first position outside 1 to Q is refused; otherwise the slots from it upward,
stopping at Q. REDO_READ: the items of the redo queue, oldest first, with their tries. Neither changes anything (R108). -/
def Obligations.ChainAndRedoAreRead : Prop :=
  ∀ s : State, linkReady s →
    (∀ first count : Byte, (count.toNat = 0 ∨ 32 < count.toNat ∨ first.toNat = 0 ∨ s.sqc.q < first.toNat) →
      exec (.chainRead first count) s = .next (answered 40 .badValue .empty s)) ∧
    (∀ first count : Byte, 1 ≤ count.toNat → count.toNat ≤ 32 → 1 ≤ first.toNat → first.toNat ≤ s.sqc.q →
      exec (.chainRead first count) s =
        .next (answered 40 .ok (.slots ((List.range (min count.toNat (s.sqc.q + 1 - first.toNat))).map fun k =>
          (first.toNat + k, s.sqc.chain.getD (first.toNat + k - 1) .unknown))) s)) ∧
    exec .redoRead s = .next (answered 41 .ok (.redo (s.sqc.redo.map fun i => (i, (itemRec i s).tries))) s)

/-- STEP_READ: a count outside 1 to 32 is refused; otherwise the records from the cursor, stopping at position 1,024, each
flagged absent at or beyond the step count, TABLE_END where the end cut the read short; in mode ALL alone the cursor ends one
past the last record read, and nothing else changes (R68, R70).
TAPEMAP_READ: a count outside 1 to 32 is refused; otherwise the map length, the tape position and the reel state, then
the entries from the map cursor, stopping at position 4,095, each flagged absent at or beyond the map length, TABLE_END where
the end cut the read short; in mode ALL alone the cursor ends one past the last entry read (R111, R112). -/
def Obligations.StepsAndTapeEntriesAreReadAtTheCursor : Prop :=
  (∀ (count : Byte) (s : State), linkReady s → s.store.stepCursor.position ≤ 1024 →
      ((count.toNat = 0 ∨ 32 < count.toNat) → exec (.stepRead count) s = .next (answered 18 .badValue .empty s)) ∧
      (1 ≤ count.toNat → count.toNat ≤ 32 →
        let p := s.store.stepCursor.position
        let n := min count.toNat (1024 - p)
        exec (.stepRead count) s =
          .next (answered 18 (if 1024 < p + count.toNat then .tableEnd else .ok)
            (.stepRecords p ((List.range n).map fun k => (stepAt (p + k) s, decide (s.store.stepCount ≤ p + k))))
            { s with store := { s.store with stepCursor :=
              { position := if s.store.stepCursor.mode = .all then p + n else p, mode := s.store.stepCursor.mode } } }))) ∧
  (∀ (count : Byte) (s : State), linkReady s → s.tmu.cursor.position ≤ 4096 →
      ((count.toNat = 0 ∨ 32 < count.toNat) → exec (.tapemapRead count) s = .next (answered 26 .badValue .empty s)) ∧
      (1 ≤ count.toNat → count.toNat ≤ 32 →
        let p := s.tmu.cursor.position
        let n := min count.toNat (4096 - p)
        exec (.tapemapRead count) s =
          .next (answered 26 (if 4096 < p + count.toNat then .tableEnd else .ok)
            (.tapeEntries s.tmu.mapLength s.tmu.position (reelState s)
              ((List.range n).map fun k => (p + k, entryAt (p + k) s, decide (s.tmu.mapLength ≤ p + k))))
            { s with tmu := { s.tmu with cursor :=
              { position := if s.tmu.cursor.mode = .all then p + n else p, mode := s.tmu.cursor.mode } } })))

/-- ITEM_READ: a position above 1,023, an image outside 1 to 4 or a count outside 1 to 32 is refused; otherwise the records
of the image for consecutive steps, stopping at position 1,023, each flagged absent for a step at or beyond the step count
or an image not enabled. Nothing changes (R78).
The item counts sum to the number of records of the panel: the step count times the number of enabled images (R78).
That an absent record names its step and image and reads PENDING with no tries and no reason is the model's choice
(notes/assumptions/45.md). -/
def Obligations.ItemsAreReadAndCounted : Prop :=
  (∀ (position : Word16) (image count : Byte) (s : State), linkReady s →
      ((1023 < position.toNat ∨ image.toNat = 0 ∨ 4 < image.toNat ∨ count.toNat = 0 ∨ 32 < count.toNat) →
        exec (.itemRead position image count) s = .next (answered 21 .badValue .empty s)) ∧
      (position.toNat ≤ 1023 → 1 ≤ count.toNat → count.toNat ≤ 32 → ∀ im : Fin 4, image.toNat = im.val + 1 →
        exec (.itemRead position image count) s =
          .next (answered 21 .ok (.items ((List.range (min count.toNat (1024 - position.toNat))).map fun k =>
            let i : Item := { step := Fin.ofNat 1024 (position.toNat + k), image := im }
            (position.toNat + k, im.val + 1, itemRec i s,
              !(decide (position.toNat + k < s.store.stepCount) && (s.pgs.active.image im).enabled)))) s))) ∧
  (∀ s : State, s.store.stepCount ≤ 1024 →
      let c := itemCounts s
      c.pending + c.chained + c.redo + c.head + c.inserted + c.suspect + c.abandoned + c.skipped + c.taped =
        s.store.stepCount * (([0, 1, 2, 3] : List (Fin 4)).countP fun i => (s.pgs.active.image i).enabled))

/-! ### Requests that set -/

/-- SET_LANDMARKS is refused with BAD_VALUE for an angle out of range or out of order, then with WRONG_STATE in HOMING, RUNNING
and STOPPING, and in STOPPED with another index offset; otherwise it is taken whole with its tuning values clamped and echoed, the
pointer at the first landmark above the angle. Another offset loses the synchronization, sets the travel count to 2,048 and
switches off every channel on by angle or edge (R33).
That BAD_VALUE comes before WRONG_STATE is the model's choice (notes/assumptions/46.md). -/
def Obligations.SetLandmarksIsTakenAsAWhole : Prop :=
  ∀ (f : LandmarkFields) (s : State), linkReady s →
    let good := 1 ≤ f.close.toNat ∧ f.close.toNat < f.commit.toNat ∧ f.commit.toNat < f.opening.toNat ∧
      f.opening.toNat < f.index.toNat ∧ f.index.toNat < f.fire.toNat ∧ f.fire.toNat < f.verifyClose.toNat ∧
      f.verifyClose.toNat ≤ 4095 ∧ f.offset.toNat ≤ 4095
    let held := s.msv.state = .homing ∨ inRun s = true ∨
      (s.msv.state = .stopped ∧ f.offset.toNat ≠ s.store.landmarks.offset.toNat)
    let p : LandmarkProfile :=
      { close := f.close.setWidth 12, commit := f.commit.setWidth 12, opening := f.opening.setWidth 12
        index := f.index.setWidth 12, fire := f.fire.setWidth 12, verifyClose := f.verifyClose.setWidth 12
        offset := f.offset.setWidth 12, tolerance := min 15 f.tolerance.toNat, nominal := max 2000 f.nominal.toNat
        stall := max 20 (min 2000 f.stall.toNat) }
    let t := { s with store := { s.store with landmarks := p }
                      stu := { s.stu with pointer := pointerAbove p s.stu.angle } }
    (¬ good → exec (.setLandmarks f) s = .next (answered 8 .badValue .empty s)) ∧
    (good → held → exec (.setLandmarks f) s = .next (answered 8 .wrongState .empty s)) ∧
    (good → ¬ held → p.offset = s.store.landmarks.offset →
      exec (.setLandmarks f) s = .next (answered 8 .ok (.landmarks p) t)) ∧
    (good → ¬ held → p.offset ≠ s.store.landmarks.offset →
      ∃ cs, exec (.setLandmarks f) s =
          .next (answered 8 .ok (.landmarks p)
            { t with stu := { t.stu with synced := false, travel := 2048, channels := cs } }) ∧
        ∀ i : ChannelNo, cs[i].command = false ∧ cs[i].trigger = .spent ∧ cs[i].force = s.stu.channels[i].force ∧
          cs[i].locked = s.stu.channels[i].locked ∧ cs[i].active = s.stu.channels[i].active)

/-- The settings that SET_CHANNEL carries: in ANGLE mode an on-angle and an off-angle up to 4,095 that differ; in EDGE mode an
input up to 11, a sense, the delay clamped to 4,095 and the width to 1 to 4,095; the overrun limit clamped to 5 to 2,000.
Anything else is no setting (R42, R185).
SET_CHANNEL: refused with BAD_VALUE for a channel above 8 or settings that are none; in RUNNING and STOPPING the settings
go to the pending copy; in any other state a channel that is off adopts them at once, and its command stays off (R42).
What becomes of a trigger at an adoption is the model's reading (notes/assumptions/38.md). -/
def Obligations.SetChannelStagesOrAdopts : Prop :=
  (∀ f : ChannelFields,
      let limit := max 5 (min 2000 f.limit.toNat)
      (f.mode = 0 → ∀ on off : Angle, (f.byte3 ++ f.byte2).toNat = on.toNat → f.word4.toNat = off.toNat → on ≠ off →
        channelSettingsOf f = some { mode := .angle on off, limit := limit }) ∧
      (f.mode = 0 → (4095 < (f.byte3 ++ f.byte2).toNat ∨ 4095 < f.word4.toNat ∨ f.byte3 ++ f.byte2 = f.word4) →
        channelSettingsOf f = none) ∧
      (f.mode = 1 → ∀ i : InputNo, f.byte2.toNat = i.val → (f.byte3 = 0 ∨ f.byte3 = 1) →
        channelSettingsOf f =
          some { mode := .edge i (if f.byte3 = 0 then .rise else .fall) (min 4095 f.word4.toNat)
                   (max 1 (min 4095 f.word6.toNat)), limit := limit }) ∧
      (f.mode = 1 → (11 < f.byte2.toNat ∨ 1 < f.byte3.toNat) → channelSettingsOf f = none) ∧
      (1 < f.mode.toNat → channelSettingsOf f = none)) ∧
  (∀ (f : ChannelFields) (s : State), linkReady s → s.lnk.trailing = [] →
      ((8 < f.channel.toNat ∨ channelSettingsOf f = none) →
        exec (.setChannel f) s = .next (answered 9 .badValue .empty s)) ∧
      (∀ (i : ChannelNo) (c : ChannelSettings), f.channel.toNat = i.val → channelSettingsOf f = some c →
        (inRun s = true →
          exec (.setChannel f) s = .next (answered 9 .ok (.channel i c true)
            (setChannelRec i { s.stu.channels[i] with staged := some c } s))) ∧
        (inRun s = false →
          exec (.setChannel f) s = .next (answered 9 .ok (.channel i c false)
            (reportState (stateView s)
              (guardChannel i (setChannelRec i (({ s.stu.channels[i] with staged := some c } : Channel).adopt i) s))))) ∧
        (inRun s = false → s.stu.channels[i].command = false → channelOutput i s.stu.channels[i] = false →
          let old : ChannelSettings := s.stu.channels[i].active
          let edges : Bool := (match old.mode with | .edge .. => true | .angle .. => false) &&
            (match c.mode with | .edge .. => true | .angle .. => false)
          exec (.setChannel f) s = .next (answered 9 .ok (.channel i c false)
            (setChannelRec i { s.stu.channels[i] with active := c, staged := none
                                                      trigger := if edges = true then s.stu.channels[i].trigger else .spent
                                                      nextOpen := edges && s.stu.channels[i].nextOpen } s)))))

/-- The settings that the window form of SET_WINDOW carries: a role and an edge of their lists, a class that the role allows or
ROLE_DEFAULT, the role's own input or one of the twelve for GUARD and WATCH, lo and hi up to 4,095 that differ, K clamped to
16. Anything else is no setting (R50, R52, R185). That class code 0 is ROLE_DEFAULT, whose code no rule gives, and that an
UNUSED window takes neither an input nor a class, are the model's choice (notes/assumptions/20.md).
SET_WINDOW. The window form is refused with BAD_VALUE for a window above 11, settings that are none, or a unique role that
another window holds in either copy; it goes to the pending copy in RUNNING and STOPPING, and otherwise resets the window with
its new settings. The input form is refused for an input above 11 and sets the filter count, clamped to 1 to 15. The skew
form sets the skew limit, clamped to 1,023 (R49, R52, R61). -/
def Obligations.SetWindowTakesItsThreeForms : Prop :=
  (∀ (f : WindowFields) (w : WindowSettings), windowSettingsOf f = some w ↔
      (f.role.toNat = (match w.role with
          | .unused => 0 | .part => 1 | .lead1 => 2 | .lead2 => 3 | .driver => 4 | .chain => 5 | .tape => 6 | .guard => 7
          | .watch => 8) ∧
        f.edge.toNat = (match w.edge with
          | .rise => 0 | .fall => 1 | .high => 2 | .low => 3) ∧
        (match w.role with
          | .unused => w.input = none
          | .part => w.input = some 0
          | .lead1 => w.input = some 1
          | .lead2 => w.input = some 2
          | .driver => w.input = some 3
          | .chain => w.input = some 4
          | .tape => w.input = some 5
          | _ => w.input.map (·.val) = some f.input.toNat) ∧
        ((f.cls.toNat = 0 ∧ w.cls = (match w.role with
            | .unused => none
            | .part => some .w
            | .watch => some .w
            | .lead1 => some .d
            | .lead2 => some .d
            | _ => some .s)) ∨
          (f.cls.toNat = 1 ∧ w.cls = some .w ∧ w.role ≠ .unused ∧ w.role ≠ .chain ∧ w.role ≠ .tape) ∨
          (f.cls.toNat = 2 ∧ w.cls = some .d ∧ w.role ≠ .unused ∧ w.role ≠ .chain ∧ w.role ≠ .tape) ∨
          (f.cls.toNat = 3 ∧ w.cls = some .s ∧ w.role ≠ .unused)) ∧
        f.lo.toNat = w.lo.toNat ∧ f.hi.toNat = w.hi.toNat ∧ w.lo ≠ w.hi ∧ w.burst = min 16 f.burst.toNat)) ∧
  (∀ s : State, linkReady s →
      (∀ f : WindowFields, (11 < f.window.toNat ∨ windowSettingsOf f = none) →
        exec (.setWindowWindow f) s = .next (answered 10 .badValue .empty s)) ∧
      (∀ (f : WindowFields) (n m : Fin 12) (w : WindowSettings), f.window.toNat = n.val → windowSettingsOf f = some w →
        w.role ≠ .unused → w.role ≠ .guard → w.role ≠ .watch → m ≠ n →
        (s.wmu.windows[m].active.role = w.role ∨ ∃ st, s.wmu.windows[m].staged = some st ∧ st.role = w.role) →
        exec (.setWindowWindow f) s = .next (answered 10 .badValue .empty s)) ∧
      (∀ (f : WindowFields) (n : Fin 12) (w : WindowSettings), f.window.toNat = n.val → windowSettingsOf f = some w →
        (w.role = .unused ∨ w.role = .guard ∨ w.role = .watch ∨ ∀ m : Fin 12, m ≠ n →
          s.wmu.windows[m].active.role ≠ w.role ∧ ∀ st, s.wmu.windows[m].staged = some st → st.role ≠ w.role) →
        exec (.setWindowWindow f) s =
          .next (answered 10 .ok (.window n.val w (inRun s))
            (setWindowRec n (if inRun s then { s.wmu.windows[n] with staged := some w }
              else { active := w, staged := none, isOpen := false, capture := none, lastCapture := none, mark := false
                     history := [] }) s))) ∧
      (∀ input count : Byte, 11 < input.toNat →
        exec (.setWindowInput input count) s = .next (answered 10 .badValue .empty s)) ∧
      (∀ (input count : Byte) (i : InputNo), input.toNat = i.val →
        exec (.setWindowInput input count) s =
          .next (answered 10 .ok (.windowInput i (max 1 (min 15 count.toNat)))
            { s with wmu := { s.wmu with filterCounts := s.wmu.filterCounts.set i.val (max 1 (min 15 count.toNat)) } })) ∧
      (∀ limit : Word16,
        exec (.setWindowSkew limit) s =
          .next (answered 10 .ok (.number (min 1023 limit.toNat))
            { s with wmu := { s.wmu with skewLimit := min 1023 limit.toNat } })))

/-- SET_AXIS: refused with BAD_VALUE for an axis above 3 or a style outside the two; with WRONG_STATE when the style, the home
offset or the search limit would change on an axis that is MOVING, SETTLING or HOMING, or in HOMING, RUNNING and STOPPING;
otherwise the style, the offset, the limit and the following tolerance are set, and the rates go to the pending copy, all
clamped. The commanded position is not moved (R130, R131).
That BAD_VALUE comes before WRONG_STATE, that the offset and the limit are compared as clamped, that a service motion of an
UNHOMED axis does not hold its three settings, and that a pulse begun goes on, are the model's choice
(notes/assumptions/46.md, 52.md and 62.md). -/
def Obligations.SetAxisTakesItsSettings : Prop :=
  ∀ (f : AxisFields) (s : State), linkReady s →
    ((3 < f.axis.toNat ∨ 1 < f.style.toNat) → exec (.setAxis f) s = .next (answered 11 .badValue .empty s)) ∧
    (∀ (a : Axis) (style : OutputStyle),
      f.axis.toNat = (match a with | .x => 0 | .y => 1 | .span => 2 | .rot => 3) →
      f.style.toNat = (match style with | .stepDir => 0 | .cwCcw => 1) →
      let r := s.mot.axis a
      let rs := max 1 (min 8 f.startRate.toNat)
      let top : Nat := match a with | .x => 45000 | .y => 36000 | .span => 3000 | .rot => 6399
      let offset : Int := Int.ofNat (min top f.homeOffset.toNat)
      let limit := max 1 f.searchLimit.toNat
      let fixed := style = r.style ∧ offset = r.homeOffset ∧ limit = r.searchLimit
      let held := r.state = .moving ∨ r.state = .settling ∨ r.state = .homing ∨ s.msv.state = .homing ∨ inRun s = true
      let q : AxisRec :=
        { r with staged := { rs := rs, rt := max rs (min 40 f.topRate.toNat), a := max 1 (min 8 f.accel.toNat) }
                 stagedFlag := true, style := style, homeOffset := offset, searchLimit := limit
                 following := max 1 f.following.toNat }
      (¬ fixed → held → exec (.setAxis f) s = .next (answered 11 .wrongState .empty s)) ∧
      ((fixed ∨ ¬ held) → exec (.setAxis f) s = .next (answered 11 .ok (.axis a q) (setAxisRec a q s))))

/-- The map form of SET_STATIONS is refused with BAD_VALUE when Q, V and R break the conditions of the station map with the
dispensers as they stand, then with WRONG_STATE in RUNNING and STOPPING; otherwise the map is set and the chain rebuilt as
UNKNOWN, every item that a slot held going back to PENDING with its tries. The threshold form sets both thresholds, clamped
(R86, R102).
That BAD_VALUE comes before WRONG_STATE is the model's choice (notes/assumptions/46.md). -/
def Obligations.SetStationsRebuildsTheChain : Prop :=
  ∀ s : State, linkReady s →
    (∀ q v r : Byte,
      let fits := (8 ≤ q.toNat ∧ q.toNat ≤ 96 ∧ 2 ≤ v.toNat ∧ v.toNat < r.toNat ∧ r.toNat < q.toNat) ∧
        (∀ n : Fin 48, s.sqc.dispensers[n].state ≠ .disabled →
          1 ≤ s.sqc.dispensers[n].position ∧ s.sqc.dispensers[n].position < v.toNat ∧
          ∀ m : Fin 48, m ≠ n → s.sqc.dispensers[m].state ≠ .disabled →
            s.sqc.dispensers[m].position ≠ s.sqc.dispensers[n].position)
      (¬ fits → exec (.setStationsMap q v r) s = .next (answered 12 .badValue .empty s)) ∧
      (fits → inRun s = true → exec (.setStationsMap q v r) s = .next (answered 12 .wrongState .empty s)) ∧
      (fits → inRun s = false → Table.wf ItemRecord.fresh s.pgs.items = true →
        ∃ items, exec (.setStationsMap q v r) s =
            .next (answered 12 .ok (.stations q.toNat v.toNat r.toNat)
              { s with pgs := { s.pgs with items := items }
                       sqc := { s.sqc with q := q.toNat, v := v.toNat, r := r.toNat
                                           chain := List.replicate q.toNat { content := .unknown, stray := false, judged := false } } }) ∧
          ∀ i : Item, Table.read .fresh items i.key =
            if s.sqc.chain.any fun c => c.holds == some i
            then { state := .pending, tries := (itemRec i s).tries, reason := none } else itemRec i s)) ∧
    (∀ depletion suspect : Byte,
      exec (.setStationsThreshold depletion suspect) s =
        .next (answered 12 .ok (.thresholds (max 1 (min 8 depletion.toNat)) (max 2 (min 8 suspect.toNat)))
          { s with store := { s.store with depletion := max 1 (min 8 depletion.toNat)
                                           suspect := max 2 (min 8 suspect.toNat) } }))

/-- SET_DISPENSER with KEEP, ENABLE or DISABLE: refused with BAD_VALUE for a number above 47, a class outside its list, or a
position that the station map does not allow for the state that follows (a position outside 1 to 96 in any state, which is
the model's choice, notes/assumptions/21.md); with WRONG_STATE in RUNNING and STOPPING when the position or the class
would change. Otherwise it answers with the entry, which holds the new position, class and state; ENABLE of one not ENABLED
empties its history and failure count, DISABLE and KEEP keep them; every other entry is unchanged. A new position rebuilds the
chain map (R101). A change of the state queues one DISPENSER report with the new state, the cause and the history after
the change; one that makes the dispenser ENABLED also removes STARVED from the dwell reason set, and the run goes on where that
empties it at rest (R11, R103, R104).
SET_DISPENSER at a dispenser's own place and class, in every machine state: with the state left as it was it changes nothing and no
report is queued, with no DWELL ready to end; DISABLE queues its report; ENABLE of one not ENABLED queues its report
and removes STARVED (R101, R103, R104).
DISPENSER_READY: refused with BAD_VALUE above 47 and with WRONG_STATE for a DISABLED dispenser; otherwise the dispenser is
ENABLED with an empty history and no failures. One already ENABLED queues no report; another queues a DISPENSER report of
cause READY and removes STARVED, and the run goes on where that empties the dwell reason set at rest (R11, R103, R104).
That one already ENABLED keeps STARVED, and that BAD_VALUE comes before WRONG_STATE, are the model's reading
(notes/assumptions/30.md and 46.md). -/
def Obligations.DispensersAreSetAndMadeReady : Prop :=
  (∀ (act : DispenserAction) (n p c : Byte) (s : State), linkReady s →
      let cmd : Instr := match act with
        | .keep => .setDispenserKeep n p c
        | .enable => .setDispenserEnable n p c
        | .disable => .setDispenserDisable n p c
      ((47 < n.toNat ∨ 1 < c.toNat) → exec cmd s = .next (answered 13 .badValue .empty s)) ∧
      (∀ (d : Fin 48) (cls : DispenserClass), n.toNat = d.val →
        c.toNat = (match cls with | .plain => 0 | .polarized => 1) →
        let old := s.sqc.dispensers[d]
        let after : DispenserState := match act with
          | .keep => old.state
          | .enable => .enabled
          | .disable => .disabled
        let bad := p.toNat = 0 ∨ 96 < p.toNat ∨ (after ≠ .disabled ∧ (s.sqc.v ≤ p.toNat ∨
          ∃ m : Fin 48, m ≠ d ∧ s.sqc.dispensers[m].state ≠ .disabled ∧ s.sqc.dispensers[m].position = p.toNat))
        let entry : Dispenser :=
          { position := p.toNat, cls := cls, state := after
            history := if old.state ≠ .enabled ∧ act = .enable then [] else old.history
            failures := if old.state ≠ .enabled ∧ act = .enable then 0 else old.failures }
        (bad → exec cmd s = .next (answered 13 .badValue .empty s)) ∧
        (¬ bad → inRun s = true → (old.position ≠ p.toNat ∨ old.cls ≠ cls) →
          exec cmd s = .next (answered 13 .wrongState .empty s)) ∧
        (¬ bad → (inRun s = true → old.position = p.toNat ∧ old.cls = cls) →
          let placed := setDispenserRec d { old with position := p.toNat, cls := cls } s
          let stands := if old.position = p.toNat then placed else forgetChain s.sqc.q placed
          let changed : State :=
            if after = old.state then stands
            else if after = .enabled then
              setDwell (fun w => { w with starved := false })
                (enqueue (.dispenser d.val .enabled .enable []) (setDispenserRec d entry stands))
            else enqueue (.dispenser d.val .disabled .disable old.history) (setDispenserRec d entry stands)
          ∃ t, t = reportState (stateView s) (raiseIfReady changed) ∧
            exec cmd s = .next (answered 13 .ok (.dispenser d.val entry) t) ∧ t.sqc.dispensers[d] = entry ∧
            (∀ m : Fin 48, m ≠ d → t.sqc.dispensers[m] = s.sqc.dispensers[m]) ∧
            (old.position = p.toNat → t.sqc.chain = s.sqc.chain) ∧
            (old.position ≠ p.toNat →
              t.sqc.chain = List.replicate s.sqc.q { content := .unknown, stray := false, judged := false }) ∧
            t.sqc.q = s.sqc.q ∧ t.sqc.redo = s.sqc.redo ∧ t.store = s.store ∧ t.tmu = s.tmu ∧ t.wmu = s.wmu ∧
            t.mot = s.mot ∧ t.fau = s.fau ∧ t.pending = s.pending))) ∧
  (∀ (d : Fin 48) (s : State),
      let old := s.sqc.dispensers[d]
      (∀ n p : Byte, n.toNat = d.val → p.toNat = old.position → 1 ≤ old.position → old.position < s.sqc.v →
        s.sqc.v ≤ 96 → (∀ m : Fin 48, m ≠ d → s.sqc.dispensers[m].state ≠ .disabled →
          s.sqc.dispensers[m].position ≠ old.position) → linkReady s →
        ∀ c : Byte, c.toNat = (match old.cls with | .plain => 0 | .polarized => 1) →
        (s.lnk.trailing = [] → (inDwell s && dwellEmpty s && s.msv.atRest) = false →
          (old.state = .enabled →
            exec (.setDispenserEnable n p c) s = .next (answered 13 .ok (.dispenser d.val old) s)) ∧
          (old.state = .disabled →
            exec (.setDispenserDisable n p c) s = .next (answered 13 .ok (.dispenser d.val old) s)) ∧
          exec (.setDispenserKeep n p c) s = .next (answered 13 .ok (.dispenser d.val old) s) ∧
          (old.state ≠ .disabled →
            exec (.setDispenserDisable n p c) s =
              .next (answered 13 .ok (.dispenser d.val { old with state := .disabled })
                (enqueue (.dispenser d.val .disabled .disable old.history)
                  (setDispenserRec d { old with state := .disabled } s))))) ∧
        (old.state ≠ .enabled →
          exec (.setDispenserEnable n p c) s =
            .next (answered 13 .ok (.dispenser d.val { old with state := .enabled, history := [], failures := 0 })
              (reportState (stateView s) (raiseIfReady (setDwell (fun w => { w with starved := false })
                (enqueue (.dispenser d.val .enabled .enable [])
                  (setDispenserRec d { old with state := .enabled, history := [], failures := 0 } s))))))))) ∧
  (∀ (n : Byte) (s : State), linkReady s →
      (47 < n.toNat → exec (.dispenserReady n) s = .next (answered 38 .badValue .empty s)) ∧
      (∀ d : Fin 48, n.toNat = d.val →
        let old := s.sqc.dispensers[d]
        let ready := setDispenserRec d { old with state := .enabled, history := [], failures := 0 } s
        (old.state = .disabled → exec (.dispenserReady n) s = .next (answered 38 .wrongState .empty s)) ∧
        (old.state = .enabled → s.lnk.trailing = [] → (inDwell s && dwellEmpty s && s.msv.atRest) = false →
          exec (.dispenserReady n) s = .next (answered 38 .ok .empty ready)) ∧
        ((old.state = .depleted ∨ old.state = .suspended) →
          exec (.dispenserReady n) s = .next (answered 38 .ok .empty
            (reportState (stateView s) (raiseIfReady (setDwell (fun w => { w with starved := false })
              (enqueue (.dispenser d.val .enabled .ready []) ready))))))))

/-- SET_SPAN: refused above code 15; otherwise the code reads as the position, clamped to 3,000 pulses, and every other code
as before (R72). SET_GEOMETRY takes its four values clamped, in every state (R135).
REPORT_MASK takes every mask and echoes it (R182). SET_BAUD refuses a code above 3 and otherwise holds the speed until
the end of its reply, when the speed is taken and the framer returns to HUNT with no byte held (R173).
STEP_CURSOR and the map form of TAPEMAP_CURSOR: refused for a position past the last of the table or a mode code outside
the three; otherwise the cursor is set and echoed (R68, R111).
The tape form of TAPEMAP_CURSOR: refused with BAD_VALUE above the map length, then with WRONG_STATE in RUNNING and
STOPPING; otherwise the position is set, the jammed and map-end flags are cleared, and the TAPE reports are queued: REEL where the
reel state changed, then POSITION_SET (R113, R121, R123).
That the tape form tests BAD_VALUE before WRONG_STATE is the model's choice (notes/assumptions/46.md). -/
def Obligations.SingleSettingsAndCursorsAreSet : Prop :=
  (∀ s : State, linkReady s →
      (∀ (c : Byte) (p : Word16), 15 < c.toNat → exec (.setSpan c p) s = .next (answered 14 .badValue .empty s)) ∧
      (∀ (c : Byte) (p : Word16), c.toNat ≤ 15 → Table.wf spanReset s.store.spans = true →
        ∃ spans, exec (.setSpan c p) s = .next (answered 14 .ok (.span c.toNat (min 3000 p.toNat))
            { s with store := { s.store with spans := spans } }) ∧
          ∀ k, Table.read spanReset spans k = if k = c.toNat then min 3000 p.toNat else Table.read spanReset s.store.spans k) ∧
      (∀ f : GeometryFields,
        exec (.setGeometry f) s =
          .next (answered 15 .ok (.geometry (min 45000 f.hx.toNat : Nat) (min 36000 f.hy.toNat : Nat) (min 50 f.settle.toNat)
              (min 20 f.margin.toNat))
            { s with store := { s.store with hx := (min 45000 f.hx.toNat : Nat), hy := (min 36000 f.hy.toNat : Nat)
                                             settleTime := min 50 f.settle.toNat, fitMargin := min 20 f.margin.toNat } }))) ∧
  (∀ s : State,
      (linkReady s → ∀ m : Byte,
        exec (.reportMask m) s = .next (answered 5 .ok (.byte m) { s with lnk := { s.lnk with mask := m } })) ∧
      (linkReady s → ∀ c : Byte, 3 < c.toNat → exec (.setBaud c) s = .next (answered 4 .badValue .empty s)) ∧
      (linkReady s → ∀ c : Byte, c.toNat ≤ 3 →
        exec (.setBaud c) s =
          .next (answered 4 .ok (.byte c) { s with lnk := { s.lnk with baudNext := some c.toNat } })) ∧
      (s.lnk.baudDue = none → exec .baudSwitch s = .next s) ∧
      (∀ b, s.lnk.baudDue = some b →
        exec .baudSwitch s = .next { s with lnk := { s.lnk with baud := b, baudDue := none, framer := .hunt
                                                                heldBytes := [], gapTimer := none } })) ∧
  (∀ (p : Word16) (m : Byte) (s : State), linkReady s →
      ((1023 < p.toNat ∨ 2 < m.toNat) → exec (.stepCursor p m) s = .next (answered 16 .badValue .empty s)) ∧
      ((4095 < p.toNat ∨ 2 < m.toNat) → exec (.tapemapCursorMap p m) s = .next (answered 24 .badValue .empty s)) ∧
      (∀ mode : Advance, m.toNat = (match mode with | .hold => 0 | .all => 1 | .write => 2) →
        let c : Cursor := { position := p.toNat, mode := mode }
        (p.toNat ≤ 1023 → exec (.stepCursor p m) s =
          .next (answered 16 .ok (.cursor c) { s with store := { s.store with stepCursor := c } })) ∧
        (p.toNat ≤ 4095 → exec (.tapemapCursorMap p m) s =
          .next (answered 24 .ok (.cursor c) { s with tmu := { s.tmu with cursor := c } })))) ∧
  (∀ (p : Word16) (s : State), linkReady s →
      (s.tmu.mapLength < p.toNat → exec (.tapemapCursorTape p) s = .next (answered 24 .badValue .empty s)) ∧
      (p.toNat ≤ s.tmu.mapLength → inRun s = true →
        exec (.tapemapCursorTape p) s = .next (answered 24 .wrongState .empty s)) ∧
      (p.toNat ≤ s.tmu.mapLength → inRun s = false →
        let t := { s with tmu := { s.tmu with position := p.toNat, jammed := false, mapEnd := false } }
        let reel : ReelState := if tapeEnd s then .unthreaded else .ready
        let report (cause : TapeCause) (q : Option Nat) : Report := .tape cause p.toNat s.tmu.mapLength reel q
        exec (.tapemapCursorTape p) s = .next (answered 24 .ok (.tapePosition p.toNat reel)
          (enqueue (report .positionSet (some p.toNat)) (if s.tmu.jammed then enqueue (report .reel none) t else t)))))

/-- STEP_WRITE of records that all pass their checks (a position below 1,024, a dispenser up to 47, no work item of the step
CHAINED, REDO or HEAD), with starvation not judged: each position from the cursor reads as its record, every other as before,
in modes ALL and WRITE the cursor ends one past the last record, and nothing else changes (R67, R68, R69).
STEP_WRITE whose first record is refused writes nothing and leaves the cursor: TABLE_END at position 1,024, BAD_VALUE for
a dispenser above 47, WRONG_STATE while a work item of the step is CHAINED, REDO or HEAD. A list that is not of 1 to 32 records is
refused with BAD_LENGTH (R69). In general the records before the first refused stay written, and those from it on are not looked at: the
reply carries its status and the count written, and in modes ALL and WRITE the cursor is left at the refused position, which is 1,024
for TABLE_END. Where a record was written in RUNNING with a DIRECT or TAPE_OUT panel, STARVED is set or removed as the run is starved or not:
no slot and no head load holds an item, assignment would take none, and unfinished items remain; the run goes on where the set
is empty at rest (R11, R68, R69, R104).
The order of the grounds for a record's refusal is the model's choice (notes/assumptions/46.md). -/
def Obligations.StepWriteWritesUpToTheFirstRefused : Prop :=
  (∀ (l : List StepFields) (s : State), linkReady s → s.lnk.trailing = [] → 1 ≤ l.length → l.length ≤ 32 →
      s.store.stepCursor.position + l.length ≤ 1024 → (∀ f ∈ l, f.dispenser.toNat ≤ 47) →
      (∀ k < l.length, stepInFlight (s.store.stepCursor.position + k) s = false) →
      (inDwell s && dwellEmpty s && s.msv.atRest) = false → judgesStarvation s = false → Table.wf StepRecord.reset s.store.steps = true →
      ∃ steps, exec (.stepWrite l) s = .next (answered 17 .ok (.number l.length)
          { s with store := { s.store with
              steps := steps
              stepCursor := { position := if s.store.stepCursor.mode = .hold then s.store.stepCursor.position
                                          else s.store.stepCursor.position + l.length
                              mode := s.store.stepCursor.mode } } }) ∧
        (∀ (k : Nat) (h : k < l.length), Table.read .reset steps (s.store.stepCursor.position + k) =
          { x := l[k].x, y := l[k].y, rot := l[k].rot.toFin, span := l[k].span.toFin
            dispenser := Fin.ofNat 48 l[k].dispenser.toNat, barrier := l[k].barrier, skip := l[k].skip }) ∧
        (∀ m, (m < s.store.stepCursor.position ∨ s.store.stepCursor.position + l.length ≤ m) →
          Table.read .reset steps m = stepAt m s)) ∧
  ((∀ (f : StepFields) (l : List StepFields) (s : State), linkReady s → s.lnk.trailing = [] → l.length ≤ 31 →
      (inDwell s && dwellEmpty s && s.msv.atRest) = false →
      let p := s.store.stepCursor.position
      (1024 ≤ p → exec (.stepWrite (f :: l)) s = .next (answered 17 .tableEnd (.number 0) s)) ∧
      (p < 1024 → 47 < f.dispenser.toNat → exec (.stepWrite (f :: l)) s = .next (answered 17 .badValue (.number 0) s)) ∧
      (p < 1024 → f.dispenser.toNat ≤ 47 → stepInFlight p s = true →
        exec (.stepWrite (f :: l)) s = .next (answered 17 .wrongState (.number 0) s)) ∧
      (∀ g : List StepFields, (g = [] ∨ 32 < g.length) →
        exec (.stepWrite g) s = .next (answered 17 .badLength .empty s))) ∧
    (∀ (l : List StepFields) (n : Nat) (status : Status) (s : State), linkReady s → 1 ≤ l.length → l.length ≤ 32 → n ≤ l.length →
      Table.wf StepRecord.reset s.store.steps = true →
      let p := s.store.stepCursor.position
      let inHold := s.store.stepCursor.mode = .hold
      p + n ≤ 1024 →
      (∀ (k : Nat) (h : k < l.length), k < n → l[k].dispenser.toNat ≤ 47 ∧ stepInFlight (p + k) s = false) →
      ((n = l.length ∧ status = .ok) ∨ ∃ h : n < l.length,
        (status = .tableEnd ∧ p + n = 1024) ∨ (status = .badValue ∧ p + n < 1024 ∧ 47 < l[n].dispenser.toNat) ∨
        (status = .wrongState ∧ p + n < 1024 ∧ l[n].dispenser.toNat ≤ 47 ∧ stepInFlight (p + n) s = true)) →
      ∃ (steps : Table StepRecord) (hungry : Bool),
        let written : State := { s with store := { s.store with
          steps := steps, stepCursor := { position := if inHold then p else p + n, mode := s.store.stepCursor.mode } } }
        let judges := n ≠ 0 ∧ isRunning s = true ∧ s.pgs.panel.isSome = true ∧
          (runMode s = some .direct ∨ runMode s = some .tapeOut)
        let judged : State :=
          if judges then { written with msv := { s.msv with dwell := { s.msv.dwell with starved := hungry } } } else written
        (hungry = true ↔ (∀ c ∈ s.sqc.chain, c.holds = none) ∧ headItem s = none ∧ (assignSearch written).chosen = none ∧
          anyUnfinished written = true) ∧
        exec (.stepWrite l) s = .next (answered 17 status (.number n) (reportState (stateView s) (raiseIfReady judged))) ∧
        (∀ (k : Nat) (h : k < l.length), k < n → Table.read .reset steps (p + k) =
          { x := l[k].x, y := l[k].y, rot := l[k].rot.toFin, span := l[k].span.toFin
            dispenser := Fin.ofNat 48 l[k].dispenser.toNat, barrier := l[k].barrier, skip := l[k].skip }) ∧
        (∀ m, (m < p ∨ p + n ≤ m) → Table.read .reset steps m = stepAt m s)))

/-- TAPEMAP_WRITE of entries that all pass their checks: each position from the map cursor reads as its entry, every other as
before, the map length is at least one past the last, in modes ALL and WRITE the cursor ends there, and nothing else changes,
in every machine state (R110, R111).
TAPEMAP_WRITE whose first entry is refused writes nothing: TABLE_END at position 4,096, BAD_VALUE for a kind outside the
three or an ITEM of a step above 1,023 or an image outside 1 to 4. TAPEMAP_CLEAR is refused with WRONG_STATE in a tape run;
otherwise every entry is BLANK, the map length 0, the cursor and the tape position kept, and a TAPE report of cause CLEARED is
queued (R111, R112). In general the entries before the first refused stay written, and the reply carries its status with the count written
and the map length after the request; in modes ALL and WRITE the cursor is left at the refused position (R110, R111).
That TABLE_END comes before BAD_VALUE is the model's choice (notes/assumptions/46.md). -/
def Obligations.TapemapWriteWritesAndClearEmpties : Prop :=
  (∀ (l : List TapeFields) (s : State), linkReady s → 1 ≤ l.length → l.length ≤ 32 →
      s.tmu.cursor.position + l.length ≤ 4096 → Table.wf TapeEntry.blank s.tmu.map = true →
      ∀ es : List TapeEntry, es.length = l.length →
      (∀ (k : Nat) (h : k < l.length) (h2 : k < es.length),
        (l[k].kind = 1 ∧ ∃ i : Item, es[k] = .item i ∧ l[k].step.toNat = i.step.val ∧ l[k].image.toNat = i.image.val + 1) ∨
        (l[k].kind = 2 ∧ es[k] = .blank) ∨ (l[k].kind = 3 ∧ es[k] = .panelEnd)) →
      ∃ map, exec (.tapemapWrite l) s =
          .next (answered 25 .ok (.tapeWritten l.length (max s.tmu.mapLength (s.tmu.cursor.position + l.length)))
            { s with tmu := { s.tmu with
                map := map, mapLength := max s.tmu.mapLength (s.tmu.cursor.position + l.length)
                cursor := { position := if s.tmu.cursor.mode = .hold then s.tmu.cursor.position
                                        else s.tmu.cursor.position + l.length
                            mode := s.tmu.cursor.mode } } }) ∧
        (∀ (k : Nat) (h : k < es.length), Table.read .blank map (s.tmu.cursor.position + k) = es[k]) ∧
        (∀ m, (m < s.tmu.cursor.position ∨ s.tmu.cursor.position + l.length ≤ m) →
          Table.read .blank map m = Table.read .blank s.tmu.map m)) ∧
  ((∀ s : State, linkReady s →
      (∀ (f : TapeFields) (l : List TapeFields), l.length ≤ 31 →
        (4096 ≤ s.tmu.cursor.position →
          exec (.tapemapWrite (f :: l)) s = .next (answered 25 .tableEnd (.tapeWritten 0 s.tmu.mapLength) s)) ∧
        (s.tmu.cursor.position < 4096 → (f.kind = 0 ∨ 3 < f.kind.toNat ∨
            (f.kind = 1 ∧ (1023 < f.step.toNat ∨ f.image = 0 ∨ 4 < f.image.toNat))) →
          exec (.tapemapWrite (f :: l)) s = .next (answered 25 .badValue (.tapeWritten 0 s.tmu.mapLength) s))) ∧
      (∀ g : List TapeFields, (g = [] ∨ 32 < g.length) →
        exec (.tapemapWrite g) s = .next (answered 25 .badLength .empty s)) ∧
      (inRun s = true → (runMode s = some .tapeOut ∨ runMode s = some .tapeIn) →
        exec .tapemapClear s = .next (answered 27 .wrongState .empty s)) ∧
      ((inRun s = false ∨ (runMode s ≠ some .tapeOut ∧ runMode s ≠ some .tapeIn)) →
        exec .tapemapClear s = .next (answered 27 .ok .empty
          (enqueue (.tape .cleared s.tmu.position 0 (reelState s) none)
            { s with tmu := { s.tmu with map := [], mapLength := 0 } })))) ∧
    (∀ (l : List TapeFields) (es : List TapeEntry) (status : Status) (s : State), linkReady s → 1 ≤ l.length → l.length ≤ 32 →
      es.length ≤ l.length → Table.wf TapeEntry.blank s.tmu.map = true →
      let p := s.tmu.cursor.position
      let n := es.length
      let bad (f : TapeFields) : Prop := f.kind = 0 ∨ 3 < f.kind.toNat ∨
        (f.kind = 1 ∧ (1023 < f.step.toNat ∨ f.image = 0 ∨ 4 < f.image.toNat))
      p + n ≤ 4096 →
      (∀ (k : Nat) (h : k < l.length) (h2 : k < n),
        (l[k].kind = 1 ∧ ∃ i : Item, es[k] = .item i ∧ l[k].step.toNat = i.step.val ∧ l[k].image.toNat = i.image.val + 1) ∨
        (l[k].kind = 2 ∧ es[k] = .blank) ∨ (l[k].kind = 3 ∧ es[k] = .panelEnd)) →
      ((n = l.length ∧ status = .ok) ∨ ∃ h : n < l.length,
        (status = .tableEnd ∧ p + n = 4096) ∨ (status = .badValue ∧ p + n < 4096 ∧ bad l[n])) →
      let length := if n = 0 then s.tmu.mapLength else max s.tmu.mapLength (p + n)
      ∃ map, exec (.tapemapWrite l) s = .next (answered 25 status (.tapeWritten n length)
          { s with tmu := { s.tmu with
              map := map, mapLength := length
              cursor := { position := if s.tmu.cursor.mode = .hold then p else p + n, mode := s.tmu.cursor.mode } } }) ∧
        (∀ (k : Nat) (h : k < n), Table.read .blank map (p + k) = es[k]) ∧
        (∀ m, (m < p ∨ p + n ≤ m) → Table.read .blank map m = Table.read .blank s.tmu.map m)))

/-- STEP_COUNT: refused with BAD_VALUE above 1,024 and with WRONG_STATE while a panel is open and in RUNNING and STOPPING;
otherwise the count is set and every item is PENDING with no tries (R67, R74).
PANEL_SET: refused with BAD_VALUE for an image count outside 1 to 4 or no image of the list enabled, and with WRONG_STATE
while a panel is open when the clamped maximum tries differs from the one held. With a panel open it is staged; with none
it is active at once, a staged setup is discarded, and every item is PENDING with no tries (R73, R74).
That a repeated setup rebuilds the table too, that BAD_VALUE comes before WRONG_STATE, and that the maximum tries are
compared as clamped, are the model's (notes/assumptions/27.md and 46.md). -/
def Obligations.StepCountAndPanelSetRebuildTheItems : Prop :=
  (∀ (c : Word16) (s : State), linkReady s →
      (1024 < c.toNat → exec (.stepCount c) s = .next (answered 19 .badValue .empty s)) ∧
      (c.toNat ≤ 1024 → (s.pgs.panel.isSome = true ∨ inRun s = true) →
        exec (.stepCount c) s = .next (answered 19 .wrongState .empty s)) ∧
      (c.toNat ≤ 1024 → s.pgs.panel = none → inRun s = false →
        ∃ items, exec (.stepCount c) s = .next (answered 19 .ok (.number c.toNat)
            { s with store := { s.store with stepCount := c.toNat }, pgs := { s.pgs with items := items } }) ∧
          ∀ k, Table.read .fresh items k = { state := .pending, tries := 0, reason := none })) ∧
  (∀ (f : PanelFields) (s : State), linkReady s →
      let n := f.count.toNat
      let entries : List ImageFields := [f.image1, f.image2, f.image3, f.image4]
      let listed := (entries.take n).any fun e => e.enabled.getLsbD 0
      let image (k : Nat) (e : ImageFields) : Image :=
        if k ≤ n then { dx := e.dx, dy := e.dy, enabled := e.enabled.getLsbD 0 } else { dx := 0, dy := 0, enabled := false }
      let p : PanelSetup :=
        { count := n, image1 := image 1 f.image1, image2 := image 2 f.image2, image3 := image 3 f.image3
          image4 := image 4 f.image4, ox := f.ox, oy := f.oy, maxTries := max 1 (min 7 f.maxTries.toNat) }
      ((n = 0 ∨ 4 < n ∨ listed = false) → exec (.panelSet f) s = .next (answered 20 .badValue .empty s)) ∧
      (1 ≤ n → n ≤ 4 → listed = true →
        (s.pgs.panel.isSome = true → p.maxTries ≠ s.pgs.active.maxTries →
          exec (.panelSet f) s = .next (answered 20 .wrongState .empty s)) ∧
        (s.pgs.panel.isSome = true → p.maxTries = s.pgs.active.maxTries →
          exec (.panelSet f) s =
            .next (answered 20 .ok (.panel p true) { s with pgs := { s.pgs with staged := some p } })) ∧
        (s.pgs.panel = none →
          ∃ items, exec (.panelSet f) s = .next (answered 20 .ok (.panel p false)
              { s with pgs := { s.pgs with active := p, staged := none, items := items } }) ∧
            ∀ k, Table.read .fresh items k = { state := .pending, tries := 0, reason := none })))

/-! ### Requests that run, stop and clear the machine -/

/-- HOME is refused with WRONG_STATE outside UNHOMED and STOPPED. Taken, the state is HOMING with a HOME in flight, the clutch and
the brake as they were, a HELD plan discarded, and every axis either HOMING or waiting to be homed when its motion is over (R19,
R137, R155).
HOME with no axis in motion and generator C free: X, Y and SPAN take their pending rates and search at Rs, backing off
first where their switch is made; C is assigned to SPAN, and ROT waits for it (R131, R137).
For an axis whose search is still ending home pending, and the 20 µs and the start of the first tick, are the model's choice
(notes/assumptions/14.md and 31.md). -/
def Obligations.HomeBeginsHomingAndItsSearches : Prop :=
  (∀ s : State, linkReady s →
      (s.msv.state ≠ .unhomed → s.msv.state ≠ .stopped →
        exec .home s = .next (answered 32 .wrongState .empty s)) ∧
      ((s.msv.state = .unhomed ∨ s.msv.state = .stopped) →
        ∃ t, exec .home s = .next (answered 32 .ok .empty t) ∧
          t.msv = { s.msv with state := .homing, finishing := false, home := some false } ∧ t.mot.held = none ∧
          t.mot.running = s.mot.running ∧
          (∀ a, ((t.mot.axis a).state = .homing ∨ (t.mot.axis a).homePending = true) ∧
            (t.mot.axis a).commanded = (s.mot.axis a).commanded) ∧
          (∀ a, ((s.mot.axis a).state = .moving ∨ (s.mot.axis a).state = .settling) →
            t.mot.axis a = { s.mot.axis a with homePending := true }) ∧
          t.store = s.store ∧ t.pgs = s.pgs ∧ t.wmu = s.wmu ∧ t.sqc = s.sqc ∧ t.tmu = s.tmu ∧ t.fau = s.fau ∧
          t.pending = s.pending)) ∧
  (∀ s : State, linkReady s → (s.msv.state = .unhomed ∨ s.msv.state = .stopped) → s.mot.service = none →
      s.mot.cAxis = none → s.mot.cGap = none →
      (∀ a, ((s.mot.axis a).state = .idle ∨ (s.mot.axis a).state = .unhomed) ∧ (s.mot.axis a).drive = .idle) →
      ∃ t, exec .home s = .next (answered 32 .ok .empty t) ∧
        (∀ a, a ≠ .rot →
          let r := s.mot.axis a
          let rates := if r.stagedFlag then r.staged else r.rates
          t.mot.axis a = { r with state := .homing, rates := rates, stagedFlag := false
                                  drive := .search r.homeInput.accepted rates.rs 0 false false
                                  tick := { wait := if r.style = .stepDir ∧ r.dirHigh ≠ r.homeInput.accepted then 20 else 0 }
                                  dirHigh := r.homeInput.accepted }) ∧
        t.mot.rot = { s.mot.rot with state := .homing } ∧ t.mot.cAxis = some .span ∧ t.mot.cGap = none)

/-- RUN is refused with WRONG_STATE outside STOPPED at rest, then with BAD_VALUE for a mode outside the three, then with WRONG_STATE
by the Program Store (an open panel without the continue flag, of the other kind, or of an absent board; with none open a program
that would start empty), then by the Tape Map Unit for a TAPE_IN run with the reel jammed or at the end of the map (R15, R84, R114).
RUN DIRECT with no panel open and no board cycled in waits in RUNNING, DWELL with BOARD in the set and panel number 0 (R15, R79,
R84).
RUN TAPE_OUT that continues a pass with an item on the chain and an empty set raises the trip at once: RUNNING, CYCLING in one
STATE report (R3, R4, R11, R15, R30, R84, R114).
RUN TAPE_IN that continues an open panel: the slots that held items are UNKNOWN, the redo queue is empty, and every item of them
is PENDING with its tries; the delivery mark, the map-end flag and the last-taped record are clear; TAPE is added with TAPE_END high, and
with it low an empty set raises the trip (R11, R106, R114).
Every RUN taken sets the run record and RUNNING, DWELL, then passes the Program Store (an open panel is continued as number 1; a
TAPE_OUT pass, or a panel whose board was cycled in, starts as number 1; else BOARD), the Sequencer Controller (starvation, or TAPE_IN as
above), the Tape Map Unit and the Motion Unit, then R11, with one STATE report. The Motion Unit keeps a HELD plan, adding
TABLE, as it does for a motion in flight. Else an item in the head out of reach is ABANDONED with TARGET_RANGE and the head UNKNOWN with no
record; one the table stands at needs nothing; another has a plan NO_FIT with TABLE, started where it can (R79, R104, R154).
The order of the refusals by state and by mode, the flags of a slot made UNKNOWN, and a service motion counted as one in
flight, are the model's reading (notes/assumptions/22.md, 26.md and 29.md). -/
def Obligations.RunIsRefusedOrTaken : Prop :=
  (∀ (mode count cont : Byte) (s : State), linkReady s →
      ((s.msv.state ≠ .stopped ∨ s.msv.atRest = false) →
        exec (.run mode count cont) s = .next (answered 33 .wrongState .empty s)) ∧
      (s.msv.state = .stopped → s.msv.atRest = true →
        (2 < mode.toNat → exec (.run mode count cont) s = .next (answered 33 .badValue .empty s)) ∧
        (∀ m : RunMode, mode.toNat = (match m with | .direct => 0 | .tapeOut => 1 | .tapeIn => 2) →
          ((∃ p, s.pgs.panel = some p ∧ (cont.getLsbD 0 = false ∨ (p ≠ .tapeOut ∧ m = .tapeOut) ∨
              (p = .tapeOut ∧ m ≠ .tapeOut) ∨ (p ≠ .tapeOut ∧ boardPresent s = false))) ∨
            (s.pgs.panel = none ∧ ∀ n < s.store.stepCount, (stepAt n s).skip = true) ∨
            (m = .tapeIn ∧ (s.tmu.jammed = true ∨ s.tmu.mapLength ≤ s.tmu.position))) →
          exec (.run mode count cont) s = .next (answered 33 .wrongState .empty s)))) ∧
  (∀ (count cont : Byte) (s : State), linkReady s → s.lnk.trailing = [] → s.msv.state = .stopped →
      s.msv.atRest = true → s.pgs.panel = none → (∃ n, n < s.store.stepCount ∧ (stepAt n s).skip = false) →
      (s.pgs.boardChanged && boardPresent s) = false → headItem s = none → s.mot.held = none →
      motionInFlight s = false →
      let t := { s with
        msv := { s.msv with state := .running .dwell, finishing := false
                            run := some { mode := .direct, remaining := count.toNat, cont := cont.getLsbD 0 }
                            dwell := { s.msv.dwell with board := true } }
        pgs := { s.pgs with number := 0 } }
      exec (.run 0 count cont) s = .next (answered 33 .ok .empty (enqueue (.state (stateView t)) t))) ∧
  (∀ (count cont : Byte) (s : State), linkReady s → s.lnk.trailing = [] → s.msv.state = .stopped →
      s.msv.atRest = true → s.pgs.panel = some .tapeOut → cont.getLsbD 0 = true → headItem s = none →
      s.mot.held = none → motionInFlight s = false → (∃ c ∈ s.sqc.chain, c.holds.isSome = true) →
      s.msv.dwell = .none →
      let t := { s with
        msv := { s.msv with state := .running .cycling, finishing := false
                            run := some { mode := .tapeOut, remaining := count.toNat, cont := true }
                            trip := true, brake := false, commandedStop := false, commitPassed := false
                            heldThrough := false }
        stu := { s.stu with stallTimer := some { time := s.store.landmarks.stall, elapsed := 0 } }
        pgs := { s.pgs with number := 1 }
        tmu := { s.tmu with lastTaped := none } }
      exec (.run 1 count cont) s = .next (answered 33 .ok .empty (enqueue (.state (stateView t)) t))) ∧
  (∀ (count cont : Byte) (p : RunMode) (s : State), linkReady s → s.msv.state = .stopped → s.msv.atRest = true →
      s.pgs.panel = some p → p ≠ .tapeOut → cont.getLsbD 0 = true → boardPresent s = true → s.tmu.jammed = false →
      s.tmu.position < s.tmu.mapLength → headItem s = none → s.mot.held = none → motionInFlight s = false →
      Table.wf ItemRecord.fresh s.pgs.items = true →
      let dwell : DwellSet := { s.msv.dwell with tape := s.msv.dwell.tape || tapeEnd s }
      ∃ t, exec (.run 2 count cont) s = .next (answered 33 .ok .empty t) ∧
        t.msv.state = (if dwell = .none then .running .cycling else .running .dwell) ∧
        t.msv.run = some { mode := .tapeIn, remaining := count.toNat, cont := true } ∧
        t.msv.dwell = dwell ∧ t.msv.trip = (if dwell = .none then true else s.msv.trip) ∧ t.pgs.panel = some .tapeIn ∧
        t.pgs.number = 1 ∧
        t.sqc = { s.sqc with redo := [], chain := s.sqc.chain.map fun c =>
          if c.holds.isSome then { c with content := .unknown } else c } ∧
        t.tmu = { s.tmu with mark := none, mapEnd := false, lastTaped := none } ∧
        (∀ i, itemRec i t = if i ∈ s.sqc.redo ∨ (∃ c ∈ s.sqc.chain, c.holds = some i)
          then { state := .pending, tries := (itemRec i s).tries, reason := none } else itemRec i s) ∧
        t.wmu = s.wmu ∧ t.store = s.store ∧ t.pending = s.pending) ∧
  ((∀ (mode count cont : Byte) (m : RunMode) (s : State), linkReady s → s.msv.state = .stopped → s.msv.atRest = true →
      mode.toNat = (match m with | .direct => 0 | .tapeOut => 1 | .tapeIn => 2) →
      (∀ p, s.pgs.panel = some p → cont.getLsbD 0 = true ∧ (p = .tapeOut ↔ m = .tapeOut) ∧
        (p ≠ .tapeOut → boardPresent s = true)) →
      (s.pgs.panel = none → ∃ n, n < s.store.stepCount ∧ (stepAt n s).skip = false) →
      (m = .tapeIn → s.tmu.jammed = false ∧ s.tmu.position < s.tmu.mapLength) →
      let begun : State := { s with msv := { s.msv with
        state := .running .dwell, finishing := false
        run := some { mode := m, remaining := count.toNat, cont := cont.getLsbD 0 } } }
      let u := raiseIfReady (runPlan (tapeRun m (chainRun m (storeRun m begun))))
      let t := flushTrailing (enqueue (.state (stateView u)) u)
      exec (.run mode count cont) s = .next (answered 33 .ok .empty t) ∧
      (headItem s = none → s.pgs.panel.isSome = true → t.pgs.panel = some m ∧ t.pgs.number = 1) ∧
      (headItem s = none → s.pgs.panel = none → (m = .tapeOut ∨ (s.pgs.boardChanged && boardPresent s) = true) →
        (∃ i : Item, i.step.val < s.store.stepCount ∧ (stepOf i s).skip = false ∧
          ((s.pgs.staged.getD s.pgs.active).image i.image).enabled = true) →
        t.pgs.panel = some m ∧ t.pgs.number = 1 ∧ t.pgs.boardChanged = false ∧ t.msv.dwell.board = false)) ∧
    (∀ (m : RunMode) (s : State),
      let zero : State := { s with pgs := { s.pgs with number := 0 } }
      let setup := s.pgs.staged.getD s.pgs.active
      let listed (i : Item) : Prop := i.step.val < s.store.stepCount ∧ (setup.image i.image).enabled = true
      (s.pgs.panel.isSome = true → storeRun m s = { s with pgs := { s.pgs with panel := some m, number := 1 } }) ∧
      (s.pgs.panel = none → isRunning s = true → runMode s = some m →
        (m ≠ .tapeOut → (s.pgs.boardChanged && boardPresent s) = false →
          storeRun m s = { zero with msv := { s.msv with dwell := { s.msv.dwell with board := true } } }) ∧
        ((m = .tapeOut ∨ (s.pgs.boardChanged && boardPresent s) = true) → (∃ i, listed i ∧ (stepOf i s).skip = false) →
          ∃ items, storeRun m s = judgeStarved { s with
              msv := { s.msv with dwell := { s.msv.dwell with board := false } }
              pgs := { s.pgs with active := setup, staged := none, items := items, panel := some m, number := 1
                                  boardChanged := false } } ∧
            ∀ i, listed i → Table.read .fresh items i.key =
              { state := if (stepOf i s).skip then .skipped else .pending, tries := 0, reason := none }))) ∧
    (∀ s : State,
      let hungry := isRunning s = true ∧ s.pgs.panel.isSome = true ∧ (runMode s = some .direct ∨ runMode s = some .tapeOut) ∧
        (∀ c ∈ s.sqc.chain, c.holds = none) ∧ headItem s = none ∧ (assignSearch s).chosen = none ∧ anyUnfinished s = true
      (hungry → judgeStarved s = { s with msv := { s.msv with dwell := { s.msv.dwell with starved := true } } }) ∧
      (¬ hungry → judgeStarved s = s) ∧
      chainRun .direct s = judgeStarved s ∧ chainRun .tapeOut s = judgeStarved s ∧
      (Table.wf ItemRecord.fresh s.pgs.items = true → ∃ items,
        chainRun .tapeIn s = { s with
          pgs := { s.pgs with items := items }
          sqc := { s.sqc with redo := [], chain := s.sqc.chain.map fun c =>
            if c.holds.isSome then { c with content := .unknown } else c } } ∧
        ∀ i : Item, Table.read .fresh items i.key = if i ∈ s.sqc.redo ∨ (∃ c ∈ s.sqc.chain, c.holds = some i)
          then { state := .pending, tries := (itemRec i s).tries, reason := none } else itemRec i s) ∧
      tapeRun .direct s = s ∧ tapeRun .tapeOut s = { s with tmu := { s.tmu with lastTaped := none } } ∧
      tapeRun .tapeIn s = { s with
        tmu := { s.tmu with mark := none, mapEnd := false, lastTaped := none }
        msv := { s.msv with dwell := { s.msv.dwell with tape := s.msv.dwell.tape || tapeEnd s } } }) ∧
    (∀ s : State,
      let tabled (t : State) : State := { t with msv := { t.msv with dwell := { t.msv.dwell with table := true } } }
      let rates (a : Axis) : Rates := if (s.mot.axis a).stagedFlag then (s.mot.axis a).staged else (s.mot.axis a).rates
      (s.mot.held.isSome = true → runPlan s = tabled s) ∧
      (s.mot.held = none → headItem s = none → runPlan s = if motionInFlight s then tabled s else s) ∧
      (∀ i, s.mot.held = none → headItem s = some i → reach i s ≠ 0 →
        let dropped : State := { abandonItem i .range s with sqc := { s.sqc with redo := s.sqc.redo.filter (fun j => decide (j ≠ i)) } }
        let t := panelTest (setHead { s.wmu.head with content := .unknown, record := none }
          (raiseW .targetRange (some i) none (reach i s) dropped))
        runPlan s = if inRun t && motionInFlight t then tabled t else t) ∧
      (∀ i, s.mot.held = none → headItem s = some i → reach i s = 0 → legsOf i s = [] →
        runPlan s = if motionInFlight s then tabled s else s) ∧
      (∀ i, s.mot.held = none → headItem s = some i → reach i s = 0 → legsOf i s ≠ [] →
        let plan : Plan := { item := some i, legs := legsOf i s, verdict := .noFit, openMet := true }
        ∃ mot, runPlan s = startHeld (tabled { s with mot := mot }) ∧
          mot.held = some plan ∧ mot.running = s.mot.running ∧ mot.cAxis = s.mot.cAxis ∧ mot.cGap = s.mot.cGap ∧
          (∀ a, mot.axis a = if ∃ l ∈ legsOf i s, l.axis = a
            then { s.mot.axis a with rates := rates a, stagedFlag := false } else s.mot.axis a) ∧
          (motionInFlight s = true → runPlan s = tabled { s with mot := mot }) ∧
          (motionInFlight s = false → (∀ l ∈ legsOf i s, (s.mot.axis l.axis).state = .idle) → s.mot.cAxis = none →
            s.mot.cGap = none → (runPlan s).mot.running = some plan ∧ (runPlan s).mot.held = none ∧
            (runPlan s).msv = (tabled s).msv ∧ ∀ l ∈ legsOf i s, ((runPlan s).mot.axis l.axis).state = .moving))))

/-- STOP is answered OK in every state. It does nothing in UNHOMED, STOPPED, HALTED and STOPPING, in a HOMING already stopped and
in SERVICE with no operation or a counted jog; in CYCLING the run is ending; in DWELL it is over at once: STOPPED, no run
record, the set empty but for FAULT (R17, R18, R20, R189).
STOP in SERVICE: a running jog ends with the tick in progress and is marked ABORTED unless a fault has marked it; a loop test
is marked so; a dry revolution is marked so and its trip is dropped at once where R5 has not dropped it, as no commanded stop
(R7, R189).
STOP in HOMING: the searches end with their ticks, an axis that waits for its search is UNHOMED, the trip of a sync
revolution that R5 has not dropped is dropped as no commanded stop. While an axis searches or the shaft turns the state stays HOMING;
where nothing is left in motion and the shaft is at rest it is UNHOMED at once with the brake applied (R4, R7, R20, R139).
That a STOP before the first count of a sync revolution ends HOME at once, one of a dry revolution at rest waits for the next
rest, a STOP after a fault leaves its mark, and one in DWELL withdraws the settled report, are the model's choice
(notes/assumptions/42.md, 50.md, 57.md and 63.md). -/
def Obligations.StopActsByTheState : Prop :=
  (∀ s : State, linkReady s → s.lnk.trailing = [] →
      ((s.msv.state = .unhomed ∨ s.msv.state = .stopped ∨ s.msv.state = .halted ∨ s.msv.state = .stopping ∨
          (s.msv.state = .homing ∧ s.msv.home = some true) ∨ (s.msv.state = .service ∧ s.mot.service = none) ∨
          (s.msv.state = .service ∧ ∃ a c, s.mot.service = some (.jog a true c))) →
        exec .stop s = .next (answered 34 .ok .empty s)) ∧
      (s.msv.state = .running .cycling →
        let t := { s with msv := { s.msv with state := .stopping } }
        exec .stop s = .next (answered 34 .ok .empty (enqueue (.state (stateView t)) t))) ∧
      (s.msv.state = .running .dwell →
        ∃ t, exec .stop s = .next (answered 34 .ok .empty t) ∧
          t.msv = { s.msv with state := .stopped, finishing := false, run := none
                               dwell := { DwellSet.none with fault := s.msv.dwell.fault } } ∧
          (∀ i : ChannelNo, t.stu.channels[i].command = false ∧ t.stu.channels[i].staged = none) ∧
          (∀ n : Fin 12, t.wmu.windows[n].isOpen = false ∧ t.wmu.windows[n].staged = none) ∧
          t.sqc = { s.sqc with frame := none, verdict := .closed, vsel := 63 } ∧
          t.tmu = { s.tmu with mark := none } ∧ t.mot = { s.mot with settled := false } ∧ t.pgs = s.pgs ∧
          t.wmu.head = s.wmu.head ∧ t.fau = s.fau ∧ t.store = s.store ∧ t.pending = s.pending)) ∧
  (∀ s : State, linkReady s → s.lnk.trailing = [] → s.msv.state = .service →
      (∀ a p k e, s.mot.service = some (.jog a false .none) → (s.mot.axis a).drive = .jog p k e →
        exec .stop s = .next (answered 34 .ok .empty
          (setAxisRec a { s.mot.axis a with drive := .jog p k true }
            { s with mot := { s.mot with service := some (.jog a false .stop) } }))) ∧
      (∀ a n k w b c f, s.mot.service = some (.loop a n k w b c f .none) →
        exec .stop s = .next (answered 34 .ok .empty
          { s with mot := { s.mot with service := some (.loop a n k w b c f .stop) } })) ∧
      (∀ r, s.mot.service = some (.dry .none) → s.msv.single = some r →
        exec .stop s = .next (answered 34 .ok .empty
          (if s.msv.trip && !r.dropped then
            { s with mot := { s.mot with service := some (.dry .stop) }
                     msv := { s.msv with trip := false, commandedStop := false }
                     stu := { s.stu with engaged := false, stallTimer := none } }
          else { s with mot := { s.mot with service := some (.dry .stop) } })))) ∧
  (∀ s : State, linkReady s → s.msv.state = .homing → s.msv.home = some false →
      ∃ t, exec .stop s = .next (answered 34 .ok .empty t) ∧
        (∀ a, (t.mot.axis a).homePending = false ∧
          ((s.mot.axis a).state = .homing → (∀ b k n w e, (s.mot.axis a).drive = .search b k n w e →
              (t.mot.axis a) = { s.mot.axis a with homePending := false, drive := .search b k n w true }) ∧
            ((s.mot.axis a).drive = .idle → (t.mot.axis a).state = .unhomed)) ∧
          ((s.mot.axis a).state ≠ .homing → t.mot.axis a = { s.mot.axis a with homePending := false })) ∧
        (∀ r, s.msv.single = some r → r.dropped = false →
          t.msv.trip = false ∧ (s.msv.trip = true → t.msv.commandedStop = false)) ∧
        ((s.msv.single = none ∨ ∃ r, s.msv.single = some r ∧ r.dropped = true) →
          t.msv.trip = s.msv.trip ∧ t.msv.commandedStop = s.msv.commandedStop) ∧
        ((s.msv.atRest = false ∨
            ∃ a b k n w e, (s.mot.axis a).state = .homing ∧ (s.mot.axis a).drive = .search b k n w e) →
          t.msv.state = .homing ∧ t.msv.home = some true) ∧
        (s.msv.atRest = true → (s.msv.trip = false ∨ ∃ r, s.msv.single = some r ∧ r.dropped = false) →
          motionInFlight s = false → (∀ a, (s.mot.axis a).state = .homing → (s.mot.axis a).drive = .idle) →
          t.msv.state = .unhomed ∧ t.msv.home = none ∧ t.msv.trip = false ∧ t.msv.brake = true ∧ t.msv.single = none) ∧
        t.store = s.store ∧ t.pgs = s.pgs ∧ t.wmu = s.wmu ∧ t.sqc = s.sqc ∧ t.tmu = s.tmu ∧ t.fau = s.fau ∧
        t.pending = s.pending)

/-- CLEAR_FAULT is refused with CAUSE_PRESENT, and the causes, while STOP_LINE or LIMIT is accepted high or an overrun lock is set.
Otherwise it unlocks the capture record and keeps its content, sets the later count to 0, turns the horn off, removes FAULT and a
pending FAULT, and in HALTED makes the state STOPPED by the home condition and UNHOMED without it; the reply carries the state
(R22, R166). In RUNNING, DWELL a set that it empties at rest raises the trip (R11).
SILENCE is answered OK in every machine state, turns the horn off and does nothing else (R169).
ACK_WARNINGS is answered in every machine state with the warning count as it stood, clears the flag and sets the count to 0
(R170). A class W fault after it leaves the flag set with a count of 1. -/
def Obligations.FaultsAndAlarmsAreCleared : Prop :=
  (∀ s : State, linkReady s →
      (causePresent s = true → exec .clearFault s =
        .next (answered 35 .causePresent (.causes s.fau.stopLine.accepted s.mot.limit.accepted (anyLocked s)) s)) ∧
      (s.fau.stopLine.accepted = false → s.mot.limit.accepted = false → anyLocked s = false →
        let u := { s with
          fau := { s.fau with capture := { s.fau.capture with locked := false, later := 0 }, horn := false }
          msv := { s.msv with faultPending := false, dwell := { s.msv.dwell with fault := false } } }
        let home : MachineState := if homeCondition s then .stopped else .unhomed
        (s.msv.state = .halted → exec .clearFault s = .next (answered 35 .ok (.machine home)
          (reportState (stateView s)
            (mapChannels (fun i c => c.quiet i) { u with msv := { u.msv with state := home, finishing := false } })))) ∧
        (s.msv.state ≠ .halted → (inDwell s && s.msv.atRest && dwellEmpty u) = false →
          exec .clearFault s = .next (answered 35 .ok (.machine s.msv.state) (reportState (stateView s) u))) ∧
        (s.msv.state = .running .dwell → s.msv.atRest = true → dwellEmpty u = true →
          exec .clearFault s = .next (answered 35 .ok (.machine (.running .cycling))
            (reportState (stateView s)
              (raiseTrip { u with msv := { u.msv with state := .running .cycling, finishing := false } })))))) ∧
  (∀ s : State, linkReady s →
      exec .silence s = .next (answered 36 .ok .empty { s with fau := { s.fau with horn := false } })) ∧
  (∀ s : State, linkReady s →
      ∃ t, exec .ackWarnings s = .next (answered 37 .ok (.number s.fau.warnCount) t) ∧
        t = { s with fau := { s.fau with warnPending := false, warnCount := 0 } } ∧
        ∀ k item pos detail, (raiseW k item pos detail t).fau.warnPending = true ∧
          (raiseW k item pos detail t).fau.warnCount = 1)

/-- PANEL_RELEASE is refused with WRONG_STATE outside STOPPED and with no panel open. Taken, every unfinished item of the panel is
ABANDONED with reason RELEASED and its tries, no slot, no redo queue and no head holds an item, the panel is closed,
BOARD_RELEASE is pulsed for a panel with a board, and the state stays STOPPED (R64, R83, R106).
The flags of a slot made UNKNOWN are the model's reading (notes/assumptions/29.md). -/
def Obligations.PanelReleaseAbandonsTheRest : Prop :=
  ∀ s : State, linkReady s → s.lnk.trailing = [] →
    ((s.msv.state ≠ .stopped ∨ s.pgs.panel = none) →
      exec .panelRelease s = .next (answered 39 .wrongState .empty s)) ∧
    (∀ p, s.msv.state = .stopped → s.pgs.panel = some p → Table.wf ItemRecord.fresh s.pgs.items = true →
      ∃ t, exec .panelRelease s = .next (answered 39 .ok .empty t) ∧
        (∀ i, itemRec i t = if i ∈ workList s ∧ unfinishedIn (some p) (itemRec i s).state = true
          then { state := .abandoned, tries := (itemRec i s).tries, reason := some .released } else itemRec i s) ∧
        t.sqc = { s.sqc with redo := [], chain := s.sqc.chain.map fun c =>
          if c.holds.isSome then { c with content := .unknown } else c } ∧
        headItem t = none ∧ t.pgs.panel = none ∧ t.pgs.boardChanged = false ∧ t.pgs.number = s.pgs.number ∧
        t.pgs.active = s.pgs.active ∧
        t.pgs.boardRelease = (if p = .tapeOut then s.pgs.boardRelease else some (s.pgs.boardRelease.getD 0)) ∧
        t.msv = s.msv ∧ t.tmu = s.tmu ∧ t.fau = s.fau ∧ t.mot = s.mot ∧ t.store = s.store ∧ t.pending = s.pending)

/-! ### Service mode -/

/-- SERVICE_ENTER is refused with WRONG_STATE outside UNHOMED, STOPPED and HALTED and while a fault cause is present; otherwise the
state is SERVICE and a STATE report is queued. SERVICE_EXIT is refused with WRONG_STATE outside SERVICE and while an operation is in
flight; otherwise every force is off and the state is STOPPED by the home condition and UNHOMED without it (R188). -/
def Obligations.ServiceIsEnteredAndLeft : Prop :=
  ∀ s : State, linkReady s → s.lnk.trailing = [] →
    ((causePresent s = true ∨ (s.msv.state ≠ .unhomed ∧ s.msv.state ≠ .stopped ∧ s.msv.state ≠ .halted)) →
      exec .serviceEnter s = .next (answered 48 .wrongState .empty s)) ∧
    (causePresent s = false → (s.msv.state = .unhomed ∨ s.msv.state = .stopped ∨ s.msv.state = .halted) →
      let t := mapChannels (fun i c => c.quiet i) { s with msv := { s.msv with state := .service, finishing := false } }
      exec .serviceEnter s = .next (answered 48 .ok .empty (enqueue (.state (stateView t)) t))) ∧
    ((s.msv.state ≠ .service ∨ s.mot.service.isSome = true) →
      exec .serviceExit s = .next (answered 49 .wrongState .empty s)) ∧
    (s.msv.state = .service → s.mot.service = none →
      ∃ t, exec .serviceExit s = .next (answered 49 .ok .empty (enqueue (.state (stateView t)) t)) ∧
        t.msv = { s.msv with state := if homeCondition s then .stopped else .unhomed, finishing := false } ∧
        (∀ i : ChannelNo, t.stu.channels[i].force = false ∧ t.stu.channels[i].command = false ∧
          t.stu.channels[i].locked = s.stu.channels[i].locked ∧ t.stu.channels[i].active = s.stu.channels[i].active) ∧
        t = { s with msv := t.msv, stu := { s.stu with channels := t.stu.channels } })

/-- UNASSIGNED_KIND: a request of a kind from 1 to 63 that the kind table does not assign is answered BAD_KIND, in every machine
state; one of the assigned service kinds outside SERVICE is answered NOT_IN_SERVICE. Neither changes anything else (R177,
R179, R187).
The service-only requests are refused with NOT_IN_SERVICE outside SERVICE, whatever their fields (R177).
What kinds the row UNASSIGNED_KIND carries is the model's reading (notes/assumptions/17.md). -/
def Obligations.RequestsWithoutAKindAreRefused : Prop :=
  (∀ (k : Byte) (s : State), linkReady s → 1 ≤ k.toNat → k.toNat ≤ 63 →
      (k.toNat ∉ [1, 2, 3, 4, 5, 8, 9, 10, 11, 12, 13, 14, 15, 16, 17, 18, 19, 20, 21, 24, 25, 26, 27, 32, 33, 34, 35, 36,
          37, 38, 39, 40, 41, 42, 48, 49, 50, 51, 52, 53] →
        exec (.unassignedKind k) s = .next (answered k .badKind .empty s)) ∧
      (k.toNat ∈ [50, 51, 52, 53] → s.msv.state ≠ .service →
        exec (.unassignedKind k) s = .next (answered k .notInService .empty s))) ∧
  (∀ s : State, linkReady s → s.msv.state ≠ .service →
      (∀ a, exec (.jogRunPositive a) s = .next (answered 50 .notInService .empty s)) ∧
      (∀ a, exec (.jogRunNegative a) s = .next (answered 50 .notInService .empty s)) ∧
      (∀ a d, exec (.jogCounted a d) s = .next (answered 50 .notInService .empty s)) ∧
      (∀ a, exec (.jogHalt a) s = .next (answered 50 .notInService .empty s)) ∧
      (∀ c, exec (.forceChannelSet c) s = .next (answered 51 .notInService .empty s)) ∧
      (∀ c, exec (.forceChannelClear c) s = .next (answered 51 .notInService .empty s)) ∧
      (∀ c, exec (.forceChannelToggle c) s = .next (answered 51 .notInService .empty s)) ∧
      (∀ a m d, exec (.loopTest a m d) s = .next (answered 52 .notInService .empty s)) ∧
      exec .dryCycle s = .next (answered 53 .notInService .empty s))

/-- JOG with RUN_POSITIVE and RUN_NEGATIVE in SERVICE: refused with BAD_VALUE for an axis above 3; with WRONG_STATE while an operation
is in flight, on an axis MOVING or SETTLING, and on SPAN or ROT while generator C is not idle; otherwise the axis takes its
pending rates and issues Rs pulses a tick in the direction named, MOVING from IDLE and UNHOMED from UNHOMED, with C for SPAN and
ROT. JOG HALT ends a running jog with its tick and is otherwise OK and without effect (R127, R131, R189, R190).
JOG with COUNTED in SERVICE takes the distance clamped to 65,535 either way and, on a homed X, Y or SPAN axis, so that the target
lies within the soft limits, and echoes it; a distance of 0 starts no motion and queues TEST_DONE at once; another starts the
tick profile of its size on the axis, with the pending rates (R131, R146, R189, R190).
That HALT ends the jog of any axis, the 20 µs and the start of the first tick, BAD_VALUE before WRONG_STATE, and that a jog
replaces the tick of an ended search, are the model's (notes/assumptions/28.md, 31.md, 46.md and 56.md). -/
def Obligations.JogsMoveAnAxis : Prop :=
  (∀ (b : Byte) (s : State), linkReady s → s.msv.state = .service →
      (3 < b.toNat → exec (.jogRunPositive b) s = .next (answered 50 .badValue .empty s) ∧
        exec (.jogRunNegative b) s = .next (answered 50 .badValue .empty s) ∧
        exec (.jogHalt b) s = .next (answered 50 .badValue .empty s)) ∧
      (∀ a : Axis, b.toNat = (match a with | .x => 0 | .y => 1 | .span => 2 | .rot => 3) →
        let r := s.mot.axis a
        let onC := a = .span ∨ a = .rot
        let held := s.mot.service.isSome = true ∨ r.state = .moving ∨ r.state = .settling ∨
          (onC ∧ (s.mot.cAxis.isSome = true ∨ s.mot.cGap.isSome = true))
        let rates := if r.stagedFlag then r.staged else r.rates
        let jogging (p : Bool) : State :=
          let t := setAxisRec a { r with state := if r.state = .idle then .moving else .unhomed, rates := rates
                                         stagedFlag := false, drive := .jog p rates.rs false, dirHigh := p
                                         tick := { wait := if r.style = .stepDir ∧ r.dirHigh ≠ p then 20 else 0 } } s
          { t with mot := { t.mot with cAxis := if onC then some a else s.mot.cAxis
                                       service := some (.jog a false .none) } }
        (held → exec (.jogRunPositive b) s = .next (answered 50 .wrongState .empty s) ∧
          exec (.jogRunNegative b) s = .next (answered 50 .wrongState .empty s)) ∧
        (¬ held → exec (.jogRunPositive b) s = .next (answered 50 .ok .empty (jogging true)) ∧
          exec (.jogRunNegative b) s = .next (answered 50 .ok .empty (jogging false))) ∧
        (∀ j p k e c, s.mot.service = some (.jog j false c) → (s.mot.axis j).drive = .jog p k e →
          exec (.jogHalt b) s = .next (answered 50 .ok .empty (setAxisRec j { s.mot.axis j with drive := .jog p k true } s))) ∧
        ((∀ j c, s.mot.service ≠ some (.jog j false c)) →
          exec (.jogHalt b) s = .next (answered 50 .ok .empty s)))) ∧
  (∀ (b : Byte) (w : Word32) (s : State), linkReady s → s.msv.state = .service →
      (3 < b.toNat → exec (.jogCounted b w) s = .next (answered 50 .badValue .empty s)) ∧
      (∀ a : Axis, b.toNat = (match a with | .x => 0 | .y => 1 | .span => 2 | .rot => 3) →
        let r := s.mot.axis a
        let onC := a = .span ∨ a = .rot
        let held := s.mot.service.isSome = true ∨ r.state = .moving ∨ r.state = .settling ∨
          (onC ∧ (s.mot.cAxis.isSome = true ∨ s.mot.cGap.isSome = true))
        let rates := if r.stagedFlag then r.staged else r.rates
        (held → exec (.jogCounted b w) s = .next (answered 50 .wrongState .empty s)) ∧
        let asked := max (-65535) (min 65535 w.toInt)
        (¬ held → ∃ d : Int,
          ((r.homed = false ∨ a = .rot) → d = asked) ∧
          (∀ top, softLimit a = some top → r.homed = true → 0 ≤ r.commanded → r.commanded ≤ top →
            d = max (-r.commanded) (min (top - r.commanded) asked)) ∧
          (d = 0 → exec (.jogCounted b w) s = .next (answered 50 .ok (.distance 0)
            (enqueue (.testDone { operation := .jog, result := .done, kind := none, axis := some a, intern := none
                                  moves := none, mismatches := none, value := some r.commanded }) s))) ∧
          (d ≠ 0 →
            let t := setAxisRec a { r with state := if r.state = .idle then .moving else .unhomed, rates := rates
                                           stagedFlag := false
                                           drive := .profile (decide (0 < d)) (tickProfile rates d.natAbs)
                                           tick := { wait := if r.style = .stepDir ∧ r.dirHigh ≠ decide (0 < d) then 20 else 0 }
                                           dirHigh := decide (0 < d) } s
            exec (.jogCounted b w) s = .next (answered 50 .ok (.distance d)
              { t with mot := { t.mot with cAxis := if onC then some a else s.mot.cAxis
                                           service := some (.jog a true .none) } })))))

/-- FORCE_CHANNEL in SERVICE: refused with BAD_VALUE for a channel above 8; otherwise the force is set, cleared or reversed and the
reply echoes the force and the output, which is on with the force on and the lock clear, but held off for CUT, FORM, DRIVE and
CLINCH. For a channel whose output does not come on by it, nothing else changes but its on-timer and release timer (R37, R43,
R44, R191).
The forced output of CHAIN makes every slot UNKNOWN and every item a slot held PENDING with its tries; that of FEED sets the
jammed flag, with a TAPE report of cause REEL where the reel was not JAMMED (R191). -/
def Obligations.ForcesSwitchTheOutputs : Prop :=
  (∀ (b : Byte) (s : State), linkReady s → s.msv.state = .service →
      (8 < b.toNat → exec (.forceChannelSet b) s = .next (answered 51 .badValue .empty s) ∧
        exec (.forceChannelClear b) s = .next (answered 51 .badValue .empty s) ∧
        exec (.forceChannelToggle b) s = .next (answered 51 .badValue .empty s)) ∧
      (∀ i : ChannelNo, b.toNat = i.val →
        let c := s.stu.channels[i]
        let output (force : Bool) : Bool :=
          !c.locked && (c.command || (force && !(i == 1 || i == 2 || i == 3 || i == 4)))
        let forced (force : Bool) : Channel :=
          { c with force := force, onTimer := if output force then c.onTimer else 0
                   releaseTimer := if force then 0 else c.releaseTimer }
        (∃ t, exec (.forceChannelSet b) s = .next (answered 51 .ok (.force true (output true)) t) ∧
          t.stu.channels[i] = forced true ∧
          (output true = false ∨ output c.force = true ∨ (i ≠ 5 ∧ i ≠ 7 ∧ i ≠ 8) →
            t = setChannelRec i (forced true) s)) ∧
        exec (.forceChannelClear b) s =
          .next (answered 51 .ok (.force false (output false)) (setChannelRec i (forced false) s)) ∧
        (c.force = true → exec (.forceChannelToggle b) s = exec (.forceChannelClear b) s) ∧
        (c.force = false → exec (.forceChannelToggle b) s = exec (.forceChannelSet b) s))) ∧
  (∀ s : State, linkReady s → s.msv.state = .service →
      (channelOutput 7 s.stu.channels[7] = false → s.stu.channels[7].locked = false →
        Table.wf ItemRecord.fresh s.pgs.items = true →
        ∃ t, exec (.forceChannelSet 7) s = .next (answered 51 .ok (.force true true) t) ∧
          t.sqc.chain = List.replicate s.sqc.q { content := .unknown, stray := false, judged := false } ∧
          (∀ i, itemRec i t = if ∃ c ∈ s.sqc.chain, c.holds = some i
            then { state := .pending, tries := (itemRec i s).tries, reason := none } else itemRec i s) ∧
          t.sqc.redo = s.sqc.redo ∧ t.wmu.head = s.wmu.head ∧ t.tmu = s.tmu) ∧
      (channelOutput 8 s.stu.channels[8] = false → s.stu.channels[8].locked = false →
        let t := setChannelRec 8 { s.stu.channels[8] with force := true, releaseTimer := 0 } s
        let u := { t with tmu := { t.tmu with jammed := true } }
        exec (.forceChannelSet 8) s = .next (answered 51 .ok (.force true true)
          (if s.tmu.jammed then u else enqueue (.tape .reel s.tmu.position s.tmu.mapLength .jammed none) u))))

/-- DRY_CYCLE in SERVICE: refused with WRONG_STATE while the shaft turns or an operation is in flight; otherwise the trip is raised for
a single revolution, with the brake released and the stall timer started (R3, R4, R5, R30, R192).
LOOP_TEST in SERVICE: refused with BAD_VALUE for an axis or a mode above 1 or a seed outside 1 to 32,767; with WRONG_STATE while an
operation is in flight, on an axis MOVING or SETTLING, and in EXTERNAL on an UNHOMED axis; otherwise the first move is
positive, of the low ten bits of the number after one step of the sequence plus 1, with the pending rates adopted and both
positions saved (R131, R193, R194).
The 20 µs and the start of the first tick, BAD_VALUE before WRONG_STATE, and that a loop test replaces the tick of an ended
search, are the model's choice (notes/assumptions/31.md, 46.md and 56.md). -/
def Obligations.DryCyclesAndLoopTestsStart : Prop :=
  (∀ s : State, linkReady s → s.msv.state = .service →
      ((s.msv.atRest = false ∨ s.mot.service.isSome = true) →
        exec .dryCycle s = .next (answered 53 .wrongState .empty s)) ∧
      (s.msv.atRest = true → s.mot.service = none →
        exec .dryCycle s = .next (answered 53 .ok .empty
          { s with
            msv := { s.msv with single := some { kind := .dry, travel := 0, dropped := false }, trip := true
                                brake := false, commandedStop := false, commitPassed := false, heldThrough := false }
            mot := { s.mot with service := some (.dry .none) }
            stu := { s.stu with stallTimer := some { time := s.store.landmarks.stall, elapsed := 0 } } }))) ∧
  (∀ (b m : Byte) (seed : Word16) (s : State), linkReady s → s.msv.state = .service →
      ((1 < b.toNat ∨ 1 < m.toNat ∨ seed.toNat = 0 ∨ 32767 < seed.toNat) →
        exec (.loopTest b m seed) s = .next (answered 52 .badValue .empty s)) ∧
      (∀ (a : TableAxis) (intern : Bool), b.toNat = (match a with | .x => 0 | .y => 1) →
        m.toNat = (if intern then 0 else 1) → 1 ≤ seed.toNat → seed.toNat ≤ 32767 →
        let r := s.mot.axis (tableAxis a)
        let held := s.mot.service.isSome = true ∨ r.state = .moving ∨ r.state = .settling ∨
          (intern = false ∧ r.state = .unhomed)
        let rates := if r.stagedFlag then r.staged else r.rates
        let n := (seed.toNat * 2) % 32768 + (if seed.getLsbD 14 != seed.getLsbD 13 then 1 else 0)
        (held → exec (.loopTest b m seed) s = .next (answered 52 .wrongState .empty s)) ∧
        (¬ held →
          exec (.loopTest b m seed) s = .next (answered 52 .ok .empty
            (setAxisRec (tableAxis a)
              { r with state := if r.state = .idle then .moving else .unhomed, rates := rates, stagedFlag := false
                       drive := .profile true (tickProfile rates (n % 1024 + 1))
                       tick := { wait := if intern = false ∧ r.style = .stepDir ∧ r.dirHigh = false then 20 else 0 }
                       dirHigh := if intern then r.dirHigh else true }
              { s with mot := { s.mot with service := some (.loop a intern n 0 0 r.commanded r.feedback .none)
                                           serviceSettle := none } })))))

/-! ### The receiver -/

/-- RECEIVED_BYTE in HUNT takes SYNC to LEN and ignores any other byte; in LEN a good LEN begins the body; a byte of the body is held,
and after its last the CHECK is awaited; the gap timer starts again at the end of each byte of a frame in progress (R174, R175).
A frame whose bytes since SYNC hold no SYNC is discarded without trace but for the framer, which is in HUNT with no byte held: by
a LEN outside 1 to 241 or a bad sum (FRAME_DISCARD), by a gap of more than 10 ms (FRAME_GAP_TIMEOUT), by a framing error
(FRAMING_ERROR). A frame of good sum whose kind is outside 1 to 63 is discarded too. In HUNT a gap and a framing error do nothing
(R173, R175).
The rescan: the bytes held in a discarded frame are taken again from HUNT, so that a SYNC among them begins the next frame. A
frame in which a second SYNC and a good LEN follow the first is found after a gap with that LEN held (R175). -/
def Obligations.TheFramerTakesAndDiscardsBytes : Prop :=
  (∀ (b : Byte) (s : State), s.lnk.baudDue = none → (s.lnk.inService.isSome = true ∨ s.lnk.waiting = none) →
      (s.lnk.framer = .hunt → b = 165 →
        exec (.receivedByte b) s =
          .next { s with lnk := { s.lnk with framer := .len, heldBytes := [], gapTimer := some 0 } }) ∧
      (s.lnk.framer = .hunt → b ≠ 165 →
        exec (.receivedByte b) s = .next { s with lnk := { s.lnk with gapTimer := none } }) ∧
      (s.lnk.framer = .len → 1 ≤ b.toNat → b.toNat ≤ 241 →
        exec (.receivedByte b) s = .next { s with lnk := { s.lnk with
          framer := .body b.toNat, heldBytes := s.lnk.heldBytes ++ [b], gapTimer := some 0 } }) ∧
      (∀ n, s.lnk.framer = .body n →
        exec (.receivedByte b) s = .next { s with lnk := { s.lnk with
          framer := if s.lnk.heldBytes.length = n then .check n else .body n
          heldBytes := s.lnk.heldBytes ++ [b], gapTimer := some 0 } })) ∧
  (∀ (b : Byte) (s : State), s.lnk.baudDue = none → (s.lnk.inService.isSome = true ∨ s.lnk.waiting = none) →
      (165 : Byte) ∉ s.lnk.heldBytes →
      let hunt := { s with lnk := { s.lnk with framer := .hunt, heldBytes := [], gapTimer := none } }
      (s.lnk.framer = .len → s.lnk.heldBytes = [] → (b.toNat = 0 ∨ 241 < b.toNat) → b ≠ 165 →
        exec (.frameDiscard b) s = .next hunt ∧ exec (.receivedByte b) s = .next hunt) ∧
      (∀ n, s.lnk.framer = .check n → sumBytes (s.lnk.heldBytes ++ [b]) ≠ 0 → b ≠ 165 →
        exec (.frameDiscard b) s = .next hunt ∧ exec (.receivedByte b) s = .next hunt) ∧
      (∀ n len kind payload, s.lnk.framer = .check n → s.lnk.heldBytes = len :: kind :: payload →
        sumBytes (s.lnk.heldBytes ++ [b]) = 0 → (kind = 0 ∨ 63 < kind.toNat) →
        exec (.frameDiscard b) s = .next hunt ∧ exec (.receivedByte b) s = .next hunt) ∧
      (s.lnk.framer ≠ .hunt → exec .frameGapTimeout s = .next hunt ∧ exec .framingError s = .next hunt) ∧
      (s.lnk.framer = .hunt → exec .frameGapTimeout s = .next s ∧ exec .framingError s = .next s)) ∧
  (∀ (n : Nat) (pre : List Byte) (len : Byte) (s : State), s.lnk.baudDue = none →
      (s.lnk.inService.isSome = true ∨ s.lnk.waiting = none) → s.lnk.framer = .body n →
      (165 : Byte) ∉ pre → 1 ≤ len.toNat → len.toNat ≤ 241 → s.lnk.heldBytes = pre ++ [165, len] →
      exec .frameGapTimeout s = .next { s with lnk := { s.lnk with
        framer := .body len.toNat, heldBytes := [len], gapTimer := some 0 } })

/-- Reading a request from the kind and the payload that encodeRequest writes gives the request back, for every well-formed
request with every operand (R179, R185, R187). -/
def Obligations.RequestsReadAsWritten : Prop :=
  ∀ (i : Instr) (kind : Nat) (payload : List Byte), i.wellFormed = true → encodeRequest i = some (kind, payload) →
    parseRequest kind payload = .request i

/-- Every payload that reads as a request reads as a well-formed one of that kind and of that payload's length (R177, R179). -/
def Obligations.OnlyWellFormedRequestsAreRead : Prop :=
  ∀ (kind : Nat) (payload : List Byte) (i : Instr), parseRequest kind payload = .request i →
    i.wellFormed = true ∧ kindAssigned kind = true ∧
      ∃ written, encodeRequest i = some (kind, written) ∧ written.length = payload.length

/-- The bytes of a request's frame, SYNC, LEN, KIND, payload and CHECK, received one after another on a free line, take effect as the
request's own command does, and leave the queue of commands as it is (R174, R175, R176, R177). -/
def Obligations.AFrameReceivedIsItsRequest : Prop :=
  ∀ (i : Instr) (kind : Nat) (payload : List Byte) (s : State), i.wellFormed = true →
    encodeRequest i = some (kind, payload) → linkReady s →
    (frameOf kind payload).foldl
      (fun (o : Host.Outcome State Fault Refusal) b => match o with
        | .next t => exec (.receivedByte b) t
        | r => r)
      (.next s) = exec i s

/-! ### The shaft and its channels -/

/-- FORWARD_COUNT and REVERSE_COUNT that cross nothing. A forward count adds one to the angle, pays off the retrace count and the
excursion, and with the angle unsynchronized or the retrace count above 0 does nothing more; a reverse count takes one from the
angle and adds to both. Every count ends the rest, starts the rest time and a running stall timer again and adds to the travel
count; a single revolution counts its forward travel, and at 1,024 ac its trip is dropped as a commanded stop (R5, R6, R7,
R25, R26, R29, R30).
Faults of the shaft and its channels, each of class S, at the event that raises them: SHAFT_REVERSE as the excursion passes from 64
to 65 in RUNNING or STOPPING, once for an excursion (R31); SHAFT_STALL with the stall time the timer was started with, only while
the trip is on (R30); CHANNEL_OVERRUN for a channel that is on, which is locked off (R43, R44). What class S does is stated by
ClassActionsHaltTheMachine.
The drop of R5 before the crossing, and expiry commands that act while their timer runs, are the model's
(notes/assumptions/11.md and 26.md). -/
def Obligations.EncoderCountsMoveTheAngle : Prop :=
  (∀ s : State, s.lnk.trailing = [] →
      let msv (d : Int) : Msv :=
        { s.msv with atRest := false, restTimer := 0, single := s.msv.single.map fun r => { r with travel := r.travel + d } }
      let stu (back : Bool) : Stu :=
        { s.stu with travel := min (s.stu.travel + 1) 65535, lastReverse := back
                     stallTimer := s.stu.stallTimer.map fun _ => { time := s.store.landmarks.stall, elapsed := 0 } }
      let moved : Stu :=
        { stu false with angle := s.stu.angle + 1, retrace := s.stu.retrace - 1, excursion := s.stu.excursion - 1
                         reverseRaised := s.stu.reverseRaised && decide (s.stu.excursion - 1 ≠ 0) }
      ((s.stu.synced = false ∨ 0 < s.stu.retrace) →
        ((∀ r, s.msv.single = some r → s.msv.trip = false ∨ r.dropped = true ∨ r.travel + 1 < 1024) →
          exec .forwardCount s = .next { s with msv := msv 1, stu := moved }) ∧
        (∀ r, s.msv.single = some r → s.msv.trip = true → r.dropped = false → 1024 ≤ r.travel + 1 →
          exec .forwardCount s = .next { s with
            msv := { msv 1 with trip := false, commandedStop := true
                                single := some { r with travel := r.travel + 1, dropped := true } }
            stu := { moved with engaged := false, stallTimer := none } })) ∧
      ((inRun s = false ∨ s.stu.excursion ≠ 64 ∨ s.stu.reverseRaised = true) →
        exec .reverseCount s = .next { s with
          msv := msv (-1)
          stu := { stu true with
            angle := s.stu.angle - 1, retrace := min (s.stu.retrace + 1) 65535
            excursion := min (s.stu.excursion + 1) 65535
            engaged := s.stu.engaged && decide (min (s.stu.excursion + 1) 65535 ≤ 64) } })) ∧
  (∀ s : State,
      (inRun s = true → s.stu.excursion = 64 → s.stu.reverseRaised = false →
        ∃ u, exec .reverseCount s = .next (reportState (stateView s) (raiseFault .shaftReverse .s none none 65 u)) ∧
          u.stu.reverseRaised = true ∧ u.stu.excursion = 65 ∧ u.stu.angle = s.stu.angle - 1 ∧
          u = { s with msv := u.msv, stu := u.stu }) ∧
      (∀ t, s.stu.stallTimer = some t → s.msv.trip = true →
        exec .stallTimeReached s =
          .next (reportState (stateView s) (raiseFault .shaftStall .s none none (Int.ofNat t.time) s))) ∧
      (s.lnk.trailing = [] → (s.stu.stallTimer = none ∨ s.msv.trip = false) → exec .stallTimeReached s = .next s) ∧
      (∀ i : ChannelNo, channelOutput i s.stu.channels[i] = true →
        exec (.overrunLimitReached i) s = .next (reportState (stateView s)
          (raiseFault .channelOverrun .s (if i.val ≤ 4 then headItem s else none) none (Int.ofNat i.val)
            (setChannelRec i { s.stu.channels[i] with command := false, force := false, onTravel := 0, onTimer := 0
                                                      locked := true, releaseTimer := 0, trigger := .spent
                                                      nextOpen := false } s)))) ∧
      (∀ i : ChannelNo, channelOutput i s.stu.channels[i] = false → exec (.overrunLimitReached i) s = .next s))

/-- A forward crossing with the angle synchronized at no window and no channel. Angle 0 is BOUNDARY: the pointer at
CLOSE, the cycle number up by one, the trip held through home if it is on past COMMIT (R3, R34, R35). The landmark at the pointer
fires and the pointer moves on; in DWELL no block hears of it. At CLOSE with every axis at its place the table is reported
settled (R153). At COMMIT in CYCLING with no plan to make, a pending FAULT enters the set, and the trip stays on with the set
empty and is dropped with finishing set otherwise; in STOPPING it is dropped with finishing set (R10, R12, R14).
CLOSE in RUNNING and STOPPING with an axis MOVING or SETTLING is LATE_TABLE with the ticks left: an item in the head is returned without a
try, the head is EMPTY with its item of record and the eject mark set, and the move goes on (R34, R64, R153).
COMMIT plans the move of the PASSED item at Q in DIRECT, of the delivery mark in TAPE_IN, each leg from where the last motion ends,
ROT the shorter way, at the pending rates. The plan is HELD: FIT where no motion is in flight and the time is in the clear
window, else NO_FIT, with TABLE; in CYCLING the trip stays on with FIT and an empty set and is dropped otherwise. No leg, no
plan. An item out of reach is ABANDONED, its slot UNKNOWN (R12, R92, R131, R143 to R145, R148 to R150).
In TAPE_OUT the slot that leaves Q PASSED is appended to the map and becomes TAPED; on a full map it is TAPE_FULL and returned; an UNKNOWN
or stray slot sets the eject mark. In TAPE_IN COMMIT marks the item of the next entry if it is PENDING and in reach; INDEX feeds the
entry: the marked item as ITEM, another as SURPLUS, BLANK and PANEL_END as EMPTY. PANEL_END, or the map's end, finds an open panel with
PENDING items INCOMPLETE and ends the run; its first end with TAPE_END low is TAPE_COUNT (R115, R116, R118 to R121).
A panel end before COMMIT's decision, and plans behind HELD ones or service motions, are the model's (notes/assumptions/22.md
and 41.md). -/
def Obligations.CrossingsFireTheLandmarks : Prop :=
  (∀ s : State, s.stu.synced = true → s.stu.retrace = 0 → s.msv.single = none → s.lnk.trailing = [] →
      let a := s.stu.angle + 1
      (∀ i : ChannelNo, s.stu.channels[i].command = false ∧ s.stu.channels[i].staged = none ∧
        (match s.stu.channels[i].active.mode with
          | .angle on off => a ≠ on ∧ a ≠ off
          | .edge .. => s.stu.channels[i].trigger = .spent ∨ s.stu.channels[i].trigger = .opened)) →
      (∀ n : Fin 12, s.wmu.windows[n].staged = none ∧
        (s.wmu.windows[n].active.role = .unused ∨
          (a ≠ s.wmu.windows[n].active.lo ∧ a ≠ s.wmu.windows[n].active.hi))) →
      let c : State := { s with
        msv := { s.msv with atRest := false, restTimer := 0 }
        stu := { s.stu with angle := a, travel := min (s.stu.travel + 1) 65535, lastReverse := false
                            excursion := s.stu.excursion - 1
                            reverseRaised := s.stu.reverseRaised && decide (s.stu.excursion - 1 ≠ 0)
                            stallTimer := s.stu.stallTimer.map fun _ =>
                              { time := s.store.landmarks.stall, elapsed := 0 } } }
      let at' (l : Landmark) : Prop := s.stu.pointer = some l ∧ a = s.store.landmarks.angleOf l ∧ a ≠ 0
      let past (l : Option Landmark) : State := { c with stu := { c.stu with pointer := l } }
      (a = 0 → inDwell s = false → s.store.landmarks.close ≠ 0 →
        ∃ t, exec .forwardCount s = .next t ∧ t.stu.cycle = s.stu.cycle + 1 ∧ t.stu.pointer = some .close ∧
          t.stu.angle = 0 ∧ t.msv = { c.msv with heldThrough := s.msv.trip && s.msv.commitPassed } ∧
          t.mot = { s.mot with settled := false } ∧ t.wmu = s.wmu ∧ t.sqc = s.sqc ∧ t.lnk = s.lnk) ∧
      (a ≠ 0 → (∀ l, s.stu.pointer = some l → a ≠ s.store.landmarks.angleOf l) →
        exec .forwardCount s = .next c) ∧
      (∀ l, at' l → inDwell s = true → exec .forwardCount s = .next (past l.next)) ∧
      (at' .close → inRun s = true → inDwell s = false → anyMoving s = false →
        exec .forwardCount s =
          .next { past (some .commit) with mot := { s.mot with settled := true } }) ∧
      (at' .commit → s.msv.state = .running .cycling → s.msv.finishing = false → runMode s = some .direct →
        (∀ i, (slotAt s.sqc.q s).content ≠ .item i .passed) →
        let dwell : DwellSet := if s.msv.faultPending then { s.msv.dwell with fault := true } else s.msv.dwell
        let judged : Msv := { c.msv with commitPassed := true, faultPending := false, dwell := dwell }
        (dwell = .none → exec .forwardCount s = .next { past (some .opening) with msv := judged }) ∧
        (dwell ≠ .none → s.msv.trip = true →
          exec .forwardCount s = .next (reportState (stateView s)
            { past (some .opening) with
              msv := { judged with trip := false, commandedStop := true, finishing := true }
              stu := { (past (some .opening)).stu with engaged := false, stallTimer := none } }))) ∧
      (at' .commit → s.msv.state = .stopping → s.msv.trip = true → s.msv.faultPending = false →
        runMode s = some .tapeOut →
        exec .forwardCount s = .next (reportState (stateView s)
          { past (some .opening) with
            msv := { c.msv with commitPassed := true, trip := false, commandedStop := true, finishing := true }
            stu := { (past (some .opening)).stu with engaged := false, stallTimer := none } })) ∧
      (at' .verifyClose → s.sqc.verdict ≠ .undecided → inDwell s = false →
        exec .forwardCount s = .next { past none with sqc := { s.sqc with verdict := .closed } })) ∧
  (∀ s : State,
      let h := s.wmu.head
      let raised (item : Option Item) : State := raiseD .lateTable item none (Int.ofNat (lateTicks s)) s
      (∀ l, s.lnk.trailing = [] → s.stu.synced = true → s.stu.retrace = 0 → s.msv.single = none → inDwell s = false →
        s.stu.pointer = some l → s.stu.angle + 1 = s.store.landmarks.angleOf l → s.stu.angle + 1 ≠ 0 →
        (∀ n : Fin 12, s.wmu.windows[n].active.role ≠ .unused →
          s.stu.angle + 1 ≠ s.wmu.windows[n].active.lo ∧ s.stu.angle + 1 ≠ s.wmu.windows[n].active.hi) →
        exec .forwardCount s = .next (reportState (stateView s) (crossDevices true (s.stu.angle + 1) (deliverLandmark l
          { s with
            msv := { s.msv with atRest := false, restTimer := 0 }
            stu := { s.stu with
              angle := s.stu.angle + 1, travel := min (s.stu.travel + 1) 65535, lastReverse := false
              excursion := s.stu.excursion - 1, pointer := l.next
              reverseRaised := s.stu.reverseRaised && decide (s.stu.excursion - 1 ≠ 0)
              stallTimer := s.stu.stallTimer.map fun _ => { time := s.store.landmarks.stall, elapsed := 0 } } })))) ∧
      (∀ t, deliverLandmark .close t = atClose t ∧ deliverLandmark .commit t = atCommit t ∧
        deliverLandmark .opening t = atOpen t ∧ deliverLandmark .index t = atIndex t ∧ deliverLandmark .fire t = atFire t ∧
        deliverLandmark .verifyClose t = atVerifyClose t) ∧
      (inRun s = false → atClose s = s) ∧
      (inRun s = true → anyMoving s = false → atClose s = { s with mot := { s.mot with settled := true } }) ∧
      (inRun s = true → anyMoving s = true → (∀ i, h.content ≠ .item i) → atClose s = raised none) ∧
      (∀ i, inRun s = true → anyMoving s = true → h.content = .item i →
        (atClose s).wmu.head = { h with content := .empty, good := false, ejectMark := true } ∧
        (atClose s).pgs = (placeReturned i s).pgs ∧ (atClose s).sqc = (placeReturned i s).sqc ∧
        (atClose s).fau = (raised (some i)).fau ∧ (atClose s).lnk = (raised (some i)).lnk ∧
        (atClose s).msv = (raised (some i)).msv ∧ (atClose s).mot = s.mot) ∧
      (∀ p, s.mot.service = none → s.mot.running = some p →
        (∀ t, s.mot.settle = some t → lateTicks s = t.time - t.elapsed) ∧
        (∀ n : Axis → Nat, (∀ a, if ∃ l ∈ p.legs, l.axis = a
            then (∃ q l, (s.mot.axis a).drive = .profile q l ∧ n a = l.length) ∨ ((s.mot.axis a).drive = .idle ∧ n a = 0)
            else n a = 0) →
          s.mot.settle = none → lateTicks s = max (max (n .x) (n .y))
            (n .rot + n .span + if (n .rot ≠ 0 ∧ n .span ≠ 0) ∨ s.mot.cGap.isSome = true then 1 else 0) +
              s.store.settleTime))) ∧
  (∀ (i : Item) (s : State),
      let planned := (runMode s = some .direct ∧ (slotAt s.sqc.q s).content = .item i .passed) ∨
        (runMode s = some .tapeIn ∧ s.tmu.mark = some i)
      let step := stepOf i s
      let im := s.pgs.active.image i.image
      let qx := step.x.toInt + im.dx.toInt + s.pgs.active.ox.toInt
      let qy := step.y.toInt + im.dy.toInt + s.pgs.active.oy.toInt
      let rates (a : Axis) : Rates := if (s.mot.axis a).stagedFlag then (s.mot.axis a).staged else (s.mot.axis a).rates
      let legs := legsOf i s
      let legAt (a : Axis) : Option Leg := legs.find? fun l => l.axis == a
      let time (a : Axis) : Nat := ((legAt a).map fun l => l.ticks.length).getD 0
      let need := max (max (time .x) (time .y))
        (time .rot + time .span + if time .rot ≠ 0 ∧ time .span ≠ 0 then 1 else 0) + s.store.settleTime + s.store.fitMargin
      let period := if s.stu.periodValid then s.stu.period else s.store.landmarks.nominal
      let window := (s.store.landmarks.close - s.store.landmarks.opening).toNat * period / 409600
      let verdict : Verdict := if motionInFlight s = false ∧ need ≤ window then .fit else .noFit
      let t := (commitPlan s).1
      (targetOf i .x s = s.store.hx - (match step.rot with | 0 => qx | 1 => -qy | 2 => -qx | 3 => qy) ∧
        targetOf i .y s = s.store.hy - (match step.rot with | 0 => qy | 1 => qx | 2 => -qy | 3 => -qx) ∧
        targetOf i .rot s = 1600 * Int.ofNat step.rot.val ∧
        targetOf i .span s = Int.ofNat (Table.read 1000 s.store.spans step.span.val)) ∧
      reach i s = (if 0 ≤ targetOf i .x s ∧ targetOf i .x s ≤ 45000 then 0 else 1) +
        (if 0 ≤ targetOf i .y s ∧ targetOf i .y s ≤ 36000 then 0 else 2) ∧
      (∀ a,
        let d := targetOf i a s - startPosition a s
        let n := if a = .rot then min (d % 6400).toNat (6400 - d % 6400).toNat else d.natAbs
        let p := if a = .rot then decide (d % 6400 ≤ 3200) else decide (0 < d)
        legAt a = if n = 0 then none else some
          { axis := a, target := targetOf i a s, distance := n, positive := p, rates := rates a
            ticks := tickProfile (rates a) n }) ∧
      (∀ a,
        let p := (s.mot.axis a).commanded
        s.mot.running = none → (s.mot.axis a).drive = .idle → internalLoop a s = false → (a = .rot → 0 ≤ p ∧ p < 6400) →
        (a ≠ .rot → -65536 ≤ p ∧ p ≤ 131071) → startPosition a s = p) ∧
      (∀ a p l, s.mot.running = some p → (p.legs.find? fun l => l.axis == a) = some l →
        (∀ h, s.mot.held = some h → ∀ k ∈ h.legs, k.axis ≠ a) → startPosition a s = l.target) ∧
      (∀ a p h l, s.mot.running = some p → s.mot.held = some h → (h.legs.find? fun l => l.axis == a) = some l →
        startPosition a s = l.target) ∧
      (∀ a p n, s.mot.running = none → internalLoop a s = false →
        let r := s.mot.axis a
        ((∃ l, r.drive = .profile p l ∧ n = l.sum - r.tick.given) ∨ ∃ k e, r.drive = .jog p k e ∧ n = k - r.tick.given) →
        let goal : Int := r.commanded + if p then Int.ofNat n else -Int.ofNat n
        (a = .rot → startPosition a s = goal % 6400) ∧
        (a ≠ .rot → r.homed = false → startPosition a s = max (-65536) (min 131071 goal)) ∧
        (∀ top, softLimit a = some top → r.homed = true → 0 ≤ r.commanded → r.commanded ≤ top →
          startPosition a s = max 0 (min top goal))) ∧
      (∀ a c, s.mot.running = none → internalLoop a s = true →
        (∃ b n m w f e, s.mot.service = some (.loop b true n m w c f e)) → startPosition a s = c) ∧
      ((∀ j, ¬ ((runMode s = some .direct ∧ (slotAt s.sqc.q s).content = .item j .passed) ∨
        (runMode s = some .tapeIn ∧ s.tmu.mark = some j))) → commitPlan s = (s, .noMove)) ∧
      (planned → reach i s = 0 → legs = [] → commitPlan s = (s, .noMove)) ∧
      (planned → reach i s = 0 → legs ≠ [] →
        (commitPlan s).2 = verdict ∧
        t = { s with mot := t.mot, msv := { s.msv with dwell :=
          if verdict = .noFit then { s.msv.dwell with table := true } else s.msv.dwell } } ∧
        t.mot.held = some { item := some i, legs := legs, verdict := verdict, openMet := false } ∧
        t.mot.running = s.mot.running ∧ t.mot.cAxis = s.mot.cAxis ∧
        (∀ a, t.mot.axis a = if ∃ l ∈ legs, l.axis = a
          then { s.mot.axis a with rates := rates a, stagedFlag := false } else s.mot.axis a) ∧
        (s.msv.state = .running .cycling → s.msv.finishing = false → s.msv.faultPending = false → s.msv.trip = true →
          runMode s = some .direct →
          (verdict = .fit → s.msv.dwell = .none → atCommit s = { t with msv := { t.msv with commitPassed := true } }) ∧
          ((verdict = .noFit ∨ s.msv.dwell ≠ .none) → atCommit s = { t with
            msv := { t.msv with commitPassed := true, trip := false, commandedStop := true, finishing := true }
            stu := { s.stu with engaged := false, stallTimer := none } }))) ∧
      (planned → reach i s ≠ 0 → s.pgs.panel ≠ some .tapeOut → Table.wf ItemRecord.fresh s.pgs.items = true →
        (commitPlan s).2 = .noMove ∧ t.mot.held = s.mot.held ∧ t.fau.warnPending = true ∧
        itemRec i t = { state := .abandoned, tries := (itemRec i s).tries, reason := some .range } ∧
        t.sqc.chain = (if runMode s = some .direct then s.sqc.chain.set (s.sqc.q - 1)
          { slotAt s.sqc.q s with content := .unknown, stray := false } else s.sqc.chain))) ∧
  (∀ s : State,
      let h := s.wmu.head
      let n := s.tmu.mapLength
      let p := s.tmu.position
      let fresh : State := { s with tmu := { s.tmu with lastTaped := none } }
      let eject (t : State) : State := setHead { h with ejectMark := true } t
      let pending (i : Item) : Prop := s.pgs.panel.isSome = true ∧ i.step.val < s.store.stepCount ∧
        (s.pgs.active.image i.image).enabled = true ∧ (itemRec i s).state = .pending
      let marked (m : Option Item) : State := { s with tmu := { s.tmu with mark := m } }
      let fed : State := { s with tmu := { s.tmu with position := p + 1, mark := none } }
      let report (cause : TapeCause) (k : Nat) (t : State) : State :=
        enqueue (.tape cause t.tmu.position t.tmu.mapLength (reelState t) (some k)) t
      (∀ c, slotLeaves c s = if runMode s = some .tapeOut then tapeTake c (deliver .empty s) else
        deliver (match c.content with
          | .item _ .rejected => .unknown
          | .item i _ => .item i
          | .empty => if c.stray then .unknown else .empty
          | .unknown => .unknown) s) ∧
      (∀ c i, c.content = .item i .passed → n < 4096 → tapeTake c s = setItemState i .taped { s with tmu := { s.tmu with
        map := Table.write .blank s.tmu.map n (.item i), mapLength := n + 1, lastTaped := some (i, n) } }) ∧
      (∀ c i, c.content = .item i .passed → 4096 ≤ n →
        tapeTake c s = eject (placeReturned i (raiseD .tapeFull (some i) (some s.sqc.q) 4096 fresh))) ∧
      (∀ c : Slot, (c.content = .unknown ∨ (c.stray = true ∧ ∀ i, c.content ≠ .item i .passed)) →
        tapeTake c s = eject fresh) ∧
      (∀ c : Slot, c.content = .empty → c.stray = false → tapeTake c s = fresh) ∧
      (inRun s = true → runMode s = some .tapeIn →
        (∀ i, entryAt p s = .item i → pending i → reach i s = 0 → judgeDelivery s = marked (some i)) ∧
        (∀ i, entryAt p s = .item i → pending i → reach i s ≠ 0 → s.pgs.panel ≠ some .tapeOut →
          Table.wf ItemRecord.fresh s.pgs.items = true →
          (judgeDelivery s).tmu.mark = none ∧ (judgeDelivery s).fau.warnPending = true ∧
          itemRec i (judgeDelivery s) = { state := .abandoned, tries := (itemRec i s).tries, reason := some .range }) ∧
        ((∀ i, entryAt p s = .item i → ¬ pending i) → judgeDelivery s = marked none) ∧
        atIndex s = panelTest (tapeFeed { s with
          stu := { s.stu with indexFired := true }, sqc := { s.sqc with vsel := 63, verdict := .closed } })) ∧
      (inRun s = true → (runMode s = some .direct ∨ runMode s = some .tapeOut) →
        atIndex s = chainIndex { s with stu := { s.stu with indexFired := true } }) ∧
      (inRun s = false → atIndex s = { s with sqc := { s.sqc with vsel := 63, verdict := .closed } }) ∧
      (p < n →
        (∀ i, entryAt p s = .item i → s.tmu.mark = some i → pending i → tapeFeed s = deliver (.item i) fed) ∧
        (∀ i, entryAt p s = .item i → ¬ (s.tmu.mark = some i ∧ pending i) → tapeFeed s = deliver .surplus fed) ∧
        (entryAt p s = .blank → tapeFeed s = deliver .empty fed) ∧
        (entryAt p s = .panelEnd → tapeFeed s = panelEndEntry p (deliver .empty fed))) ∧
      (n ≤ p →
        let ended := deliver .empty { s with tmu := { s.tmu with mark := none, mapEnd := true } }
        (s.tmu.mapEnd = true → tapeFeed s = panelEndEntry n ended) ∧
        (s.tmu.mapEnd = false → tapeFeed s = report .mapEnd n
          (panelEndEntry n (if tapeEnd s then ended else raiseD .tapeCount none none 0 ended)))) ∧
      (∀ k, (s.pgs.panel = none ∨ countState .pending s = 0) → panelEndEntry k s = report .panelEnd k s) ∧
      (∀ k m, s.pgs.panel = some m → countState .pending s ≠ 0 →
        let told := enqueue (.panel s.pgs.number m .incomplete (workList s).length (itemCounts s)) s
        (s.msv.state = .running .cycling →
          panelEndEntry k s = report .panelEnd k { told with msv := { s.msv with state := .stopping } }) ∧
        (s.msv.state = .stopping → panelEndEntry k s = report .panelEnd k told)))

/-- A channel at a forward crossing, where its state lets it be switched: in ANGLE mode the command goes off at the off-angle, and at
the on-angle it goes on if the gate is open and stays off if it is closed; in EDGE mode an armed trigger counts the crossing, a
running one counts it and goes off at its width. EDGE_DELAY_REACHED evaluates the gate of an armed trigger, which runs with the
command on or is spent; EDGE_WIDTH_REACHED ends a running one. Stated for CUT, FORM and CLINCH, whose command has no other
effect, and for REJECT, which clears the slot at R (R38, R39, R40, R41, R99).
What each gate reads (R40, R41), and the head drives: a head load that is no item judged good takes the commands of CUT, FORM, DRIVE
and CLINCH off at once, and no other.
An ANGLE-mode command at its on-angle, with the head drives off unless the head holds an item judged good. GRIP marks the head load
gripped; DRIVE's output sets drive-done; EJECT's evaluated gate clears the eject mark, and its output sets eject-done over an UNKNOWN
or SURPLUS content; CHAIN and FEED set the since-close marks of the windows that check them; REJECT's output empties the slot at R.
A locked channel's command has no output (R37, R38, R41, R55, R59, R63, R99).
Expiry commands act while their trigger runs, by the model's choice (notes/assumptions/10.md and 11.md). -/
def Obligations.ChannelsSwitchByAngleAndEdge : Prop :=
  (∀ (i : ChannelNo) (s : State), s.lnk.trailing = [] →
      let c := s.stu.channels[i]
      let off : Channel := { c with command := false, onTravel := 0
                                    onTimer := if !c.locked && c.force && !headDrive i then c.onTimer else 0 }
      let ran : Channel := { off with trigger := if c.nextOpen then .opened else .spent, nextOpen := false }
      (∀ on a : Angle, maySwitch i s = true → on ≠ a → c.active.mode = .angle on a → c.command = true →
        c.trigger ≠ .running → crossChannel a i s = setChannelRec i off s) ∧
      ((i = 1 ∨ i = 2 ∨ i = 4) → maySwitch i s = true → s.msv.state ≠ .service → c.command = false →
        ∀ a o : Angle, a ≠ o → c.active.mode = .angle a o →
        (gateOpen i s = true →
          crossChannel a i s = setChannelRec i { c with command := true, onTravel := 0, releaseTimer := 0 } s) ∧
        (gateOpen i s = false → crossChannel a i s = s)) ∧
      (∀ src sense delay width n, maySwitch i s = true → c.active.mode = .edge src sense delay width →
        c.trigger = .armed n → n + 1 < delay → ∀ a,
        crossChannel a i s = setChannelRec i { c with trigger := .armed (n + 1) } s) ∧
      (∀ src sense delay width, maySwitch i s = true → c.active.mode = .edge src sense delay width →
        c.trigger = .running → c.command = true → ∀ a, crossChannel a i s =
          if width ≤ c.onTravel + 1 then setChannelRec i ran s
          else setChannelRec i { c with onTravel := c.onTravel + 1 } s) ∧
      (c.trigger = .running → exec (.edgeWidthReached i) s = .next (setChannelRec i ran s)) ∧
      (c.trigger ≠ .running → exec (.edgeWidthReached i) s = .next s) ∧
      (((∀ n, c.trigger ≠ .armed n) ∨ maySwitch i s = false) → exec (.edgeDelayReached i) s = .next s) ∧
      (∀ src sense delay width n, c.active.mode = .edge src sense delay width → c.trigger = .armed n →
        c.command = false → maySwitch i s = true → s.msv.state ≠ .service →
        ((i = 1 ∨ i = 2 ∨ i = 4) → gateOpen i s = true →
          exec (.edgeDelayReached i) s =
            .next (setChannelRec i { c with command := true, onTravel := 0, releaseTimer := 0, trigger := .running } s)) ∧
        (i ≠ 5 → gateOpen i s = false →
          exec (.edgeDelayReached i) s =
            .next (setChannelRec i { c with trigger := if c.nextOpen then .opened else .spent, nextOpen := false } s)) ∧
        (i = 6 → gateOpen 6 s = true → c.locked = false → c.force = false →
          exec (.edgeDelayReached i) s =
            .next (setSlot s.sqc.r { slotAt s.sqc.r s with content := .empty, stray := false }
              (setChannelRec i { c with command := true, onTravel := 0, releaseTimer := 0, trigger := .running } s))))) ∧
  (∀ s : State,
      let h := s.wmu.head
      let item := ∃ j, h.content = .item j
      let still := ∀ a, (s.mot.axis a).state ≠ .moving ∧ (s.mot.axis a).state ≠ .settling
      (gateOpen 0 s = true ↔ item ∨ h.content = .unknown) ∧
      (gateOpen 1 s = true ↔ item ∧ h.good = true) ∧
      (gateOpen 2 s = true ↔ item ∧ h.good = true) ∧
      (gateOpen 3 s = true ↔ item ∧ h.good = true ∧ h.driveDone = false ∧ s.mot.settled = true ∧ still) ∧
      (gateOpen 4 s = true ↔ item ∧ s.stu.driveOn = true) ∧
      (gateOpen 5 s = true ↔ h.content = .unknown ∨ h.content = .surplus ∨ h.ejectMark = true) ∧
      (gateOpen 6 s = true ↔ (slotAt s.sqc.r s).stray = true ∨ ∃ j, (slotAt s.sqc.r s).content = .item j .rejected) ∧
      (gateOpen 7 s = true ↔ runMode s = some .direct ∨ runMode s = some .tapeOut) ∧
      (gateOpen 8 s = true ↔ runMode s = some .tapeIn ∨
        (runMode s = some .tapeOut ∧ s.stu.indexFired = true ∧ ∃ x, s.tmu.lastTaped = some x)) ∧
      (∀ g : HeadLoad,
        let good := (∃ j, g.content = .item j) ∧ g.good = true
        (setHead g s).wmu = { s.wmu with head := g } ∧
        (good → setHead g s = { s with wmu := { s.wmu with head := g } }) ∧
        (¬ good → ∀ i : ChannelNo,
          let c := s.stu.channels[i]
          (((i = 1 ∨ i = 2 ∨ i = 3 ∨ i = 4) ∧ c.command = true) → (setHead g s).stu.channels[i] =
            { c with command := false, onTravel := 0, onTimer := 0
                     trigger := if c.trigger = .running then (if c.nextOpen then .opened else .spent) else c.trigger
                     nextOpen := c.nextOpen && decide (c.trigger ≠ .running) }) ∧
          (¬ ((i = 1 ∨ i = 2 ∨ i = 3 ∨ i = 4) ∧ c.command = true) → (setHead g s).stu.channels[i] = c)))) ∧
  (∀ (i : ChannelNo) (a o : Angle) (s : State), maySwitch i s = true → s.msv.state ≠ .service → a ≠ o →
      s.stu.channels[i].active.mode = .angle a o → s.stu.channels[i].command = false →
      let c := s.stu.channels[i]
      let h := s.wmu.head
      let on := setChannelRec i { c with command := true, onTravel := 0, releaseTimer := 0 } s
      (∀ j : ChannelNo, (j = 1 ∨ j = 2 ∨ j = 3 ∨ j = 4) → s.stu.channels[j].command = true →
        (∃ k, h.content = .item k) ∧ h.good = true) →
      (gateOpen i s = false → crossChannel a i s = s) ∧
      (i = 0 → gateOpen 0 s = true → crossChannel a i s = { on with wmu := { s.wmu with head := { h with gripped := true } } }) ∧
      (i = 3 → gateOpen 3 s = true → crossChannel a i s = if c.locked then on else
        { on with wmu := { s.wmu with head := { h with driveDone := true } }, stu := { on.stu with driveOn := true } }) ∧
      (i = 5 → gateOpen 5 s = true → crossChannel a i s =
        { on with wmu := { s.wmu with head := { h with
          ejectMark := false
          ejectDone := h.ejectDone || (!c.locked && !c.force && decide (h.content = .unknown ∨ h.content = .surplus)) } } }) ∧
      (i = 6 → gateOpen 6 s = true → crossChannel a i s = if c.locked || c.force then on else
        setSlot s.sqc.r { slotAt s.sqc.r s with content := .empty, stray := false } on) ∧
      (∀ role : WindowRole, ((i = 7 ∧ role = .chain) ∨ (i = 8 ∧ role = .tape)) → gateOpen i s = true →
        crossChannel a i s = { on with wmu := { s.wmu with
          windows := s.wmu.windows.map fun w => if w.active.role = role then { w with mark := true } else w } }))

/-- INDEX_MARK: an accepted rise of the index input. A rise already accepted is none; one after a reverse count, or with a travel
count below 2,048, changes the input alone. A qualified one returns the travel count to 0: the first loads the angle with
the offset and synchronizes it, with the pointer above it and no landmark fired; each sets the engaged flag if the trip is on and no
excursion beyond 64 stands, else clears it; a later one measures the period, VALID if still
engaged, and corrects the angle, a step back adding to the retrace count and a step forward made as forward moves, each taking from it
while it is above 0 and otherwise a forward crossing; an error beyond the tolerance either way is ENCODER_SLIP with the error and the
angle before the correction. INDEX_FALL changes the input alone (R25, R26, R27, R28, R29).
The landmark pointer at a synchronization stands at the first landmark of the list whose angle is above the loaded angle: it is none
only where no landmark is above it, and no earlier landmark of the list is above it (R27).
The order of the measurement, the correction with its crossings and ENCODER_SLIP, and that a rise already accepted and a fall
at a low level do nothing, are the model's reading (notes/assumptions/10.md and 26.md). -/
def Obligations.IndexMarksSynchronizeAndCorrect : Prop :=
  (∀ s : State, s.lnk.trailing = [] →
      let f (level : Bool) : Filter := { raw := level, accepted := level, candidate := 0 }
      let e : Int := (s.stu.angle - s.store.landmarks.offset).toInt
      let engaged : Bool := s.msv.trip && decide (s.stu.excursion ≤ 64)
      let period : Stu := match s.stu.periodTimer with
        | some p => { s.stu with period := p, periodValid := s.stu.engaged }
        | none => s.stu
      let measured : Stu :=
        { period with indexInput := f true, travel := 0, periodTimer := some 0, engaged := engaged
                      angle := s.store.landmarks.offset }
      (s.stu.indexInput.accepted = true → exec .indexMark s = .next s ∧
        exec .indexFall s = .next { s with stu := { s.stu with indexInput := f false } }) ∧
      (s.stu.indexInput.accepted = false → exec .indexFall s = .next s ∧
        ((s.stu.lastReverse = true ∨ s.stu.travel < 2048) →
          exec .indexMark s = .next { s with stu := { s.stu with indexInput := f true } }) ∧
        (s.stu.lastReverse = false → 2048 ≤ s.stu.travel → s.stu.synced = false →
          exec .indexMark s = .next { s with stu := { s.stu with
            indexInput := f true, travel := 0, angle := s.store.landmarks.offset, synced := true, retrace := 0
            pointer := pointerAbove s.store.landmarks s.store.landmarks.offset, periodTimer := some 0
            engaged := engaged } }) ∧
        (s.stu.lastReverse = false → 2048 ≤ s.stu.travel → s.stu.synced = true →
          (0 ≤ e → e ≤ s.store.landmarks.tolerance →
            exec .indexMark s =
              .next { s with stu := { measured with
                retrace := if e = 0 then s.stu.retrace else min (s.stu.retrace + e.toNat) 65535 } }) ∧
          (e < 0 → -e ≤ s.store.landmarks.tolerance → -e ≤ s.stu.retrace →
            exec .indexMark s = .next { s with stu := { measured with retrace := s.stu.retrace - (-e).toNat } }) ∧
          (s.store.landmarks.tolerance < e →
            exec .indexMark s = .next (reportState (stateView s)
              (raiseAt .encoderSlip .s none none s.stu.angle e
                { s with stu := { measured with retrace := min (s.stu.retrace + e.toNat) 65535 } }))) ∧
          (e < 0 →
            let jumped := forwardMoves (-e).toNat { s with stu := { measured with angle := s.stu.angle } }
            (-e ≤ s.store.landmarks.tolerance → exec .indexMark s = .next (reportState (stateView s) jumped)) ∧
            (s.store.landmarks.tolerance < -e → exec .indexMark s =
              .next (reportState (stateView s) (raiseAt .encoderSlip .s none none s.stu.angle e jumped)))))) ∧
      (forwardMoves 0 s = s ∧ ∀ n,
        let t : State := { s with stu := { s.stu with angle := s.stu.angle + 1 } }
        (0 < s.stu.retrace → forwardMoves (n + 1) s =
          forwardMoves n { t with stu := { t.stu with retrace := s.stu.retrace - 1 } }) ∧
        (s.stu.retrace = 0 → s.stu.synced = true → forwardMoves (n + 1) s = forwardMoves n (crossing (s.stu.angle + 1) t)))) ∧
  (∀ (p : LandmarkProfile) (a : Angle),
      (pointerAbove p a = none ↔ ∀ l, ¬ a < p.angleOf l) ∧
      (p.close < p.commit → p.commit < p.opening → p.opening < p.index → p.index < p.fire → p.fire < p.verifyClose →
        ∀ l, pointerAbove p a = some l → a < p.angleOf l ∧ ∀ m, a < p.angleOf m → ¬ p.angleOf m < p.angleOf l))

/-- SINGLE_REV_TRIP_DROP drops the trip of a single revolution, as a commanded stop, unless it is off or was dropped (R5, R7). REST,
with the shaft not at rest before, sets the off-home flag unless the angle is synchronized within 64 ac of 0, clears the
engaged flag, makes the period STALE and takes a pending FAULT (R2, R10, R29); with the trip on it does nothing more (R6).
Otherwise the brake is applied and the revolution is over: DWELL from a finishing CYCLING, STOPPED from STOPPING with the run
record cleared, UNHOMED from STOPPED off home, TEST_DONE for a dry revolution; a commanded stop beyond 64 ac, or an uncommanded
movement in DWELL, raises SHAFT_OVERTRAVEL, and a sync revolution that R5 dropped with the angle unsynchronized SYNC_FAIL (R4, R7,
R8, R32, R192). A REST at rest does nothing.
REST and SINGLE_REV_TRIP_DROP act where they still can, by the model's choice (notes/assumptions/10.md, 11.md and 12.md). -/
def Obligations.RestEndsTheRevolution : Prop :=
  ∀ s : State, s.lnk.trailing = [] →
    let distance := min s.stu.angle.toNat (4096 - s.stu.angle.toNat)
    let offHome := !(s.stu.synced && decide (distance ≤ 64))
    let dwell : DwellSet := if s.msv.faultPending then { s.msv.dwell with fault := true } else s.msv.dwell
    let j : State := { s with
      msv := { s.msv with atRest := true, offHome := offHome, faultPending := false, dwell := dwell }
      stu := { s.stu with engaged := false, periodValid := false } }
    let still : State := { j with msv := { j.msv with brake := true, commandedStop := false, single := none } }
    let overtravel := s.msv.commandedStop = true ∧ s.stu.synced = true ∧ 64 < distance
    let syncFail := ∃ r, s.msv.single = some r ∧ r.kind = .sync ∧ r.dropped = true ∧ s.stu.synced = false
    (s.msv.atRest = true → (inDwell s && dwellEmpty s) = false → exec .rest s = .next s) ∧
    (∀ r, s.msv.single = some r → s.msv.trip = true → r.dropped = false →
      exec .singleRevTripDrop s = .next { s with
        msv := { s.msv with trip := false, commandedStop := true, single := some { r with dropped := true } }
        stu := { s.stu with engaged := false, stallTimer := none } }) ∧
    ((s.msv.trip = false ∨ s.msv.single = none ∨ ∃ r, s.msv.single = some r ∧ r.dropped = true) →
      exec .singleRevTripDrop s = .next s) ∧
    (s.msv.atRest = false →
      (s.msv.trip = true → inDwell s = false →
        exec .rest s = .next (reportState (stateView s) j)) ∧
      (s.msv.trip = false → syncFail → s.msv.state = .homing → ∀ r, s.msv.single = some r →
        ∃ t, exec .rest s = .next t ∧ t.msv.state = .halted ∧ t.msv.home = none ∧ t.msv.brake = true ∧
          (s.fau.capture.locked = false → ∃ rec, t.fau.capture.content = some rec ∧ rec.kind = .syncFail ∧
            rec.detail = r.travel)) ∧
      (s.msv.trip = false → ¬ syncFail → (overtravel ∨ (inDwell s = true ∧ offHome = true)) →
        ∃ t, exec .rest s = .next t ∧ t.msv.state = .halted ∧ (inRun s = true → t.msv.run = none) ∧
          t.msv.brake = true ∧
          (s.fau.capture.locked = false → ∃ rec, t.fau.capture.content = some rec ∧ rec.kind = .shaftOvertravel ∧
            rec.detail = Int.ofNat s.stu.angle.toNat ∧ rec.angle = s.stu.angle)) ∧
      (s.msv.trip = false → ¬ syncFail → ¬ overtravel →
        (s.msv.state = .running .cycling → s.msv.finishing = true → dwell ≠ .none →
          exec .rest s = .next (reportState (stateView s)
            { still with msv := { still.msv with state := .running .dwell, finishing := false } })) ∧
        (s.msv.state = .running .cycling → s.msv.finishing = true → dwell = .none →
          exec .rest s = .next (reportState (stateView s)
            (raiseTrip { still with msv := { still.msv with state := .running .cycling, finishing := false } }))) ∧
        (s.msv.state = .stopping →
          ∃ t, exec .rest s = .next t ∧ t.msv = { still.msv with
              state := .stopped, finishing := false, run := none, dwell := { DwellSet.none with fault := dwell.fault } } ∧
            t.mot = { s.mot with settled := false } ∧ t.pgs = s.pgs ∧ t.fau = s.fau ∧ t.store = s.store) ∧
        (s.msv.state = .stopped →
          (offHome = false → exec .rest s = .next (reportState (stateView s) still)) ∧
          (offHome = true → ∃ t, exec .rest s = .next t ∧
            t.msv = { still.msv with state := .unhomed, finishing := false })) ∧
        ((s.msv.state = .unhomed ∨ s.msv.state = .halted) →
          exec .rest s = .next (reportState (stateView s) still)) ∧
        (∀ r, s.msv.state = .service → s.msv.single = some r → s.mot.service = some (.dry .none) →
          ∃ t, exec .rest s = .next t ∧ t.mot.service = none ∧ t.msv.single = none ∧ t.msv.state = .service ∧
            (s.lnk.mask.getLsbD 6 = true → s.lnk.queue.length < 24 → dwell = s.msv.dwell → t.lnk.queue = s.lnk.queue ++
              [.testDone { operation := .dryCycle, result := .done, kind := none, axis := none, intern := none
                           moves := none, mismatches := none, value := some r.travel }]))))

/-- LOCK_RELEASE clears the lock of a channel whose command and force are off, and does nothing to another. CHANNEL_SETTINGS_ADOPT
makes every pending copy of a channel active, where no new overrun limit is reached: with the command on it stays on in ANGLE
mode, and in EDGE mode until the crossings since it went on reach the new width; a channel that is off stays off.
WINDOW_SETTINGS_ADOPT resets every window that holds a pending copy, with those settings (R42, R44, R52).
The commands act whatever the timer and the angle, by the model's choice (notes/assumptions/11.md, 12.md and 38.md). -/
def Obligations.LocksAndPendingSettingsAreReleased : Prop :=
  ∀ s : State, s.lnk.trailing = [] →
    (∀ i : ChannelNo,
      let c := s.stu.channels[i]
      (c.locked = true → c.command = false → c.force = false →
        exec (.lockRelease i) s = .next (setChannelRec i { c with locked := false, releaseTimer := 0 } s)) ∧
      ((c.locked = false ∨ c.command = true ∨ c.force = true) → exec (.lockRelease i) s = .next s)) ∧
    ((∀ (i : ChannelNo) (st : ChannelSettings), s.stu.channels[i].staged = some st →
        channelOutput i s.stu.channels[i] = false ∨ s.stu.channels[i].onTimer < st.limit) →
      ∃ cs, exec .channelSettingsAdopt s = .next { s with stu := { s.stu with channels := cs } } ∧
        ∀ i : ChannelNo,
          let c := s.stu.channels[i]
          (c.staged = none → cs[i] = c) ∧
          (∀ st, c.staged = some st →
            cs[i].active = st ∧ cs[i].staged = none ∧ cs[i].force = c.force ∧ cs[i].locked = c.locked ∧
            (c.command = false → cs[i].command = false) ∧
            (∀ on off, st.mode = .angle on off → cs[i].command = c.command ∧ cs[i].trigger = .spent) ∧
            (∀ src sense delay width, st.mode = .edge src sense delay width → c.command = true →
              cs[i].command = decide (c.onTravel < width)))) ∧
    (∃ ws, exec .windowSettingsAdopt s = .next { s with wmu := { s.wmu with windows := ws } } ∧
      ∀ n : Fin 12,
        (s.wmu.windows[n].staged = none → ws[n] = s.wmu.windows[n]) ∧
        (∀ st, s.wmu.windows[n].staged = some st → ws[n] =
          { active := st, staged := none, isOpen := false, capture := none, lastCapture := none, mark := false
            history := [] }))

/-! ### Windows, the head load and the inputs -/

/-- A check window at a forward crossing and at an accepted edge, in RUNNING and STOPPING with the angle synchronized. It opens at lo
with its capture absent; a HIGH or LOW window that finds its level captures at once. While it is open the first edge of its
kind captures the current angle. At hi it closes: a capture is a PASS, kept as the last capture, unreported, and the result of a lead
window that applies; with none a window whose role does not apply has no result. A GUARD window without a capture passes; its capture is
GUARD_TRIP and a MISS, and it is not evaluated again at hi. The history keeps the last 16 results; a MISS that brings the count to K
raises BURST after the window's own fault and empties it. Outside those states nothing opens, captures or closes (R51, R53, R54,
R56, R61).
An open window without a capture, whose role applies, has a MISS at hi: its fault in its own class, with the item of record for
PART, LEAD1, LEAD2 and DRIVER, then BURST where the count reaches K, then the test for panel end. PART misses an undriven item, which
is returned with a try and the content EMPTY, or a driven one or none, and sets part-missed; a lead result is MISSED; CHAIN makes the
chain UNKNOWN, its items PENDING and the frame none; TAPE jams the reel in TAPE_IN, and in TAPE_OUT makes the last-taped entry BLANK and
returns its item, with a TAPE report of cause JAM (R50, R54 to R56, R59 to R61, R105, R122).
The order of the faults of a miss and the map position of the JAM report are read so (notes/assumptions/26.md and 34.md);
that a tripped GUARD's capture is the last capture from the trip on, that a TAPE miss in DIRECT raises its fault alone, and
that in TAPE_OUT it returns an item without a record too, are the model's choice (notes/assumptions/44.md, 48.md and 60.md). -/
def Obligations.WindowsOpenCaptureAndClose : Prop :=
  (∀ (n : Fin 12) (s : State),
      let w := s.wmu.windows[n]
      let working := inRun s = true ∧ s.stu.synced = true
      let level (i : InputNo) : Bool := s.wmu.inputs[i].accepted
      let met (i : InputNo) : Prop := (w.active.edge = .high ∧ level i = true) ∨ (w.active.edge = .low ∧ level i = false)
      let put (v : Window) : State := { s with wmu := { s.wmu with windows := s.wmu.windows.set n.val v } }
      let history (r : WindowResult) : List WindowResult :=
        if w.history.length < 16 then w.history ++ [r] else (w.history ++ [r]).drop (w.history.length - 15)
      let burst (t : State) : State := if bursts w then raiseBurst n t else t
      let tripped (v : Window) : State := burst (raiseFault .guardTrip (w.active.cls.getD .w) none none (Int.ofNat n.val) (put v))
      (∀ a i e, ¬ working → crossWindow a n s = s ∧ edgeWindow i e n s = s) ∧
      (∀ a i e, w.active.role = .unused → w.isOpen = false → crossWindow a n s = s ∧ edgeWindow i e n s = s) ∧
      (working → w.active.role ≠ .unused →
        (w.isOpen = false → w.active.lo ≠ w.active.hi →
          (∀ a, a ≠ w.active.lo → crossWindow a n s = s) ∧
          (∀ i, w.active.input = some i →
            (¬ met i → crossWindow w.active.lo n s = put { w with isOpen := true, capture := none }) ∧
            (w.active.role ≠ .guard → met i →
              crossWindow w.active.lo n s = put { w with isOpen := true, capture := some s.stu.angle }) ∧
            (w.active.role = .guard → met i → crossWindow w.active.lo n s =
              tripped { w with isOpen := true, capture := some s.stu.angle, lastCapture := some (s.stu.angle, false)
                               history := history .miss }))) ∧
        (w.isOpen = true →
          (∀ i e, w.active.input = some i → w.capture = none → w.active.role ≠ .guard →
            edgeWindow i e n s =
              if (w.active.edge = .rise ∨ w.active.edge = .high) ↔ e = .rise then put { w with capture := some s.stu.angle }
              else s) ∧
          (∀ i e, (w.active.input ≠ some i ∨ w.capture.isSome = true) → edgeWindow i e n s = s) ∧
          (∀ i e, w.active.input = some i → w.capture = none → w.active.role = .guard →
            edgeWindow i e n s =
              if (w.active.edge = .rise ∨ w.active.edge = .high) ↔ e = .rise then
                tripped { w with capture := some s.stu.angle, lastCapture := some (s.stu.angle, false)
                                 history := history .miss }
              else s) ∧
          (∀ a, w.capture = some a → w.active.role ≠ .guard →
            let closed := put { w with isOpen := false, capture := none, mark := false, lastCapture := some (a, false)
                                       history := history .pass }
            let applies := (∃ i, s.wmu.head.content = .item i) ∧ s.wmu.head.driveDone = true
            (w.active.role = .lead1 → applies →
              crossWindow w.active.hi n s = setHead { s.wmu.head with lead1 := .captured a } closed) ∧
            (w.active.role = .lead2 → applies →
              crossWindow w.active.hi n s = setHead { s.wmu.head with lead2 := .captured a } closed) ∧
            ((w.active.role ≠ .lead1 ∧ w.active.role ≠ .lead2) ∨ ¬ applies → crossWindow w.active.hi n s = closed)) ∧
          (w.capture.isSome = true → w.active.role = .guard →
            crossWindow w.active.hi n s = put { w with isOpen := false, capture := none, mark := false }) ∧
          (w.capture = none → w.active.role = .guard →
            crossWindow w.active.hi n s = put { w with isOpen := false, mark := false, history := history .pass }) ∧
          (w.capture = none → w.active.role ≠ .guard → windowApplies w s = false →
            crossWindow w.active.hi n s = put { w with isOpen := false, mark := false }))) ∧
      (bursts w = true ↔ 1 ≤ w.active.burst ∧ (history .miss).count .miss = w.active.burst) ∧
      (∀ t, raiseBurst n t =
        let u := raiseFault .burst .s none none (Int.ofNat n.val) t
        { u with wmu := { u.wmu with windows := u.wmu.windows.set n.val { u.wmu.windows[n] with history := [] } } })) ∧
  (∀ (n : Fin 12) (s : State), inRun s = true → s.stu.synced = true → s.wmu.windows[n].isOpen = true →
      s.wmu.windows[n].capture = none →
      let w := s.wmu.windows[n]
      let h := s.wmu.head
      let history : List WindowResult :=
        if w.history.length < 16 then w.history ++ [WindowResult.miss]
        else (w.history ++ [WindowResult.miss]).drop (w.history.length - 15)
      let shut : Window := { w with isOpen := false, mark := false, history := history }
      let closed : State := { s with wmu := { s.wmu with windows := s.wmu.windows.set n.val shut } }
      let raised (k : FaultKind) (item : Option Item) (t : State) : State :=
        raiseFault k (w.active.cls.getD .w) item none (Int.ofNat n.val) t
      let tested (t : State) : State := panelTest (if bursts w then raiseBurst n t else t)
      let undriven (i : Item) : State :=
        setHead { h with content := .empty, good := false, partMissed := true, ejectMark := h.ejectMark || h.gripped }
          (returnTried i closed)
      let leads := (∃ i, h.content = .item i) ∧ h.driveDone = true
      let missed := crossWindow w.active.hi n s
      (w.active.role = .watch → missed = tested (raised .watchMiss none closed)) ∧
      (w.active.role = .driver → h.driveDone = true → missed = tested (raised .headJam h.record closed)) ∧
      (w.active.role = .lead1 → leads → missed = tested (raised .leadMiss h.record (setHead { h with lead1 := .missed } closed))) ∧
      (w.active.role = .lead2 → leads → missed = tested (raised .leadMiss h.record (setHead { h with lead2 := .missed } closed))) ∧
      (w.active.role = .part → h.record.isSome = true → h.partMissed = false →
        (∀ i, h.content = .item i → h.driveDone = false → (itemRec i s).tries + 1 ≠ s.pgs.active.maxTries →
          missed = tested (raised .headEmpty h.record (undriven i))) ∧
        (∀ i, h.content = .item i → h.driveDone = false → (itemRec i s).tries + 1 = s.pgs.active.maxTries →
          missed = tested (raiseAbandoned i (raised .headEmpty h.record (undriven i)))) ∧
        ((h.driveDone = true ∨ ∀ i, h.content ≠ .item i) →
          missed = tested (raised .headEmpty h.record (setHead { h with partMissed := true } closed)))) ∧
      (w.active.role = .chain → w.mark = true → missed = tested (chainJam (raised .chainJam none closed))) ∧
      (w.active.role = .tape → w.mark = true → missed = tested (tapeJam (runMode s) (raised .tapeJam none closed))) ∧
      (∀ u, Table.wf ItemRecord.fresh u.pgs.items = true →
        (chainJam u).sqc = { u.sqc with
          frame := none
          chain := List.replicate u.sqc.chain.length { content := .unknown, stray := false, judged := false } } ∧
        ∀ i, itemRec i (chainJam u) = if ∃ c ∈ u.sqc.chain, c.holds = some i
          then { state := .pending, tries := (itemRec i u).tries, reason := none } else itemRec i u) ∧
      (∀ u, tapeJam (some .tapeIn) u =
        let t := enqueue (.tape .jam u.tmu.position u.tmu.mapLength .jammed (some (u.tmu.position - 1)))
          { u with tmu := { u.tmu with jammed := true } }
        if u.tmu.jammed then t else enqueue (.tape .reel u.tmu.position u.tmu.mapLength .jammed none) t) ∧
      (∀ u i p, u.tmu.lastTaped = some (i, p) → tapeJam (some .tapeOut) u =
        enqueue (.tape .jam u.tmu.position u.tmu.mapLength (reelState u) (some p))
          (placeReturned i { u with tmu := { u.tmu with map := Table.write .blank u.tmu.map p .blank } })) ∧
      (∀ u, u.tmu.lastTaped = none → tapeJam (some .tapeOut) u =
        enqueue (.tape .jam u.tmu.position u.tmu.mapLength (reelState u) none) u) ∧
      (∀ u, tapeJam (some .direct) u = u))

/-- The head load at INDEX and at OPEN. A delivery replaces the record: over a cleared head an item is in state HEAD and judged good,
and over an uncleared one the content is UNKNOWN and the item is returned without a try; the eject mark is kept. An item that no OPEN has
settled leaves the head first: not driven it is returned without a try and the head uncleared, driven it is SUSPECT. At OPEN the outcome
is RETURNED for an item that its delivery returned, otherwise CLEARED or HELD for an UNKNOWN or SURPLUS content, by the eject-done flag; BLANK for an EMPTY one without an item of record;
RETURNED for an item of record that is not driven; a driven item is SUSPECT where PART missed it or a lead window in use missed,
has no result, or the skew is beyond its nonzero limit; otherwise INSERTED with a lead window in use and UNVERIFIED without
(R58, R61, R62, R63).
OPEN, where no head window is open and some item stays unfinished. It queues one CYCLE report with the cycle number, the item of
record, the outcome, the period and the captures not yet reported, which are then reported. A driven item becomes INSERTED or, with the
outcome SUSPECT, SUSPECT, and the head EMPTY; LEAD_SKEW and, for a lead window in use with no result, LEAD_MISS are raised before the
report, each LEAD_MISS in the class its window has when the outcome is formed; one that halts the machine leaves out the captures of windows
that took up pending settings. An item not driven is returned without a try with the content UNKNOWN; a cleared content becomes EMPTY (R61 to R63, R65).
The order of the reports and the faults of OPEN, the judged-good flag without an item, RETURNED for an item that its delivery
returned, and how an item that no OPEN has settled leaves the head, are the model's (notes/assumptions/25.md, 33.md, 43.md,
55.md and 59.md). -/
def Obligations.HeadLoadsAreDeliveredAndJudged : Prop :=
  (∀ s : State,
      let h := s.wmu.head
      let inUse (r : WindowRole) : Prop := ∃ n : Fin 12, s.wmu.windows[n].active.role = r
      let skewed : Prop := ∃ a b : Angle, h.lead1 = .captured a ∧ h.lead2 = .captured b ∧ inUse .lead1 ∧ inUse .lead2 ∧
        s.wmu.skewLimit ≠ 0 ∧ s.wmu.skewLimit < min (a - b).toNat (b - a).toNat
      let doubtful : Prop := h.partMissed = true ∨ (inUse .lead1 ∧ (h.lead1 = .missed ∨ h.lead1 = .none)) ∨
        (inUse .lead2 ∧ (h.lead2 = .missed ∨ h.lead2 = .none)) ∨ skewed
      let uncleared : Prop := h.content = .unknown ∨ h.content = .surplus
      let load (c : HeadContent) (record : Option Item) (good returned : Bool) : HeadLoad :=
        { content := c, record := record, good := good, partMissed := false, driveDone := false
          ejectMark := h.ejectMark, ejectDone := false, lead1 := .none, lead2 := .none, gripped := false, returned := returned }
      let wf := Table.wf ItemRecord.fresh s.pgs.items = true
      (∀ i, h.content = .empty → (deliver (.item i) s).wmu.head = load (.item i) (some i) true false ∧
        (wf → itemRec i (deliver (.item i) s) = { state := .head, tries := (itemRec i s).tries, reason := none })) ∧
      (∀ i, uncleared → (deliver (.item i) s).wmu.head = load .unknown (some i) false true ∧
        (deliver (.item i) s).pgs = (placeReturned i s).pgs ∧ (deliver (.item i) s).sqc = (placeReturned i s).sqc) ∧
      (∀ c, (∀ i, c ≠ .item i) → (∀ j, h.content ≠ .item j) → (deliver c s).wmu.head =
        load (if h.content = .unknown ∨ h.content = .surplus then .unknown else c) none false false) ∧
      (∀ j, h.content = .item j → h.driveDone = false →
        let back := placeReturned j s
        (∀ i, (deliver (.item i) s).wmu.head = load .unknown (some i) false true ∧
          (deliver (.item i) s).pgs = (placeReturned i back).pgs ∧ (deliver (.item i) s).sqc = (placeReturned i back).sqc) ∧
        (∀ c, (∀ i, c ≠ .item i) → (deliver c s).wmu.head = load .unknown none false false ∧
          (deliver c s).pgs = back.pgs ∧ (deliver c s).sqc = back.sqc)) ∧
      (∀ j, h.content = .item j → h.driveDone = true →
        let suspect : ItemRecord := { state := .suspect, tries := (itemRec j s).tries, reason := none }
        (∀ i, i ≠ j → (deliver (.item i) s).wmu.head = load (.item i) (some i) true false ∧ (wf →
          itemRec i (deliver (.item i) s) = { state := .head, tries := (itemRec i s).tries, reason := none } ∧
          itemRec j (deliver (.item i) s) = suspect)) ∧
        (∀ c, (∀ i, c ≠ .item i) → (deliver c s).wmu.head = load c none false false ∧ (wf → itemRec j (deliver c s) = suspect))) ∧
      (uncleared → headOutcome s = if h.returned then .returned else if h.ejectDone then .cleared else .held) ∧
      (h.content = .empty → headOutcome s = if h.record.isSome then .returned else .blank) ∧
      (∀ i, h.content = .item i → h.driveDone = false → headOutcome s = .returned) ∧
      (∀ i, h.content = .item i → h.driveDone = true →
        (doubtful → headOutcome s = .suspect) ∧
        (¬ doubtful → (inUse .lead1 ∨ inUse .lead2) → headOutcome s = .inserted) ∧
        (¬ doubtful → ¬ inUse .lead1 → ¬ inUse .lead2 → headOutcome s = .unverified))) ∧
  (∀ s : State, inRun s = true →
      (∀ n : Fin 12, s.wmu.windows[n].isOpen = true → s.wmu.windows[n].active.role ≠ .part ∧
        s.wmu.windows[n].active.role ≠ .lead1 ∧ s.wmu.windows[n].active.role ≠ .lead2 ∧
        s.wmu.windows[n].active.role ≠ .driver) →
      let h := s.wmu.head
      let captures (adopted : Bool) : List (Nat × Angle) := (List.finRange 12).filterMap fun n =>
        match s.wmu.windows[n].lastCapture with
        | some (a, false) => if adopted && s.wmu.windows[n].staged.isSome then none else some (n.val, a)
        | _ => none
      let told (t : State) : State :=
        { t with wmu := { t.wmu with windows := t.wmu.windows.map fun w =>
          { w with lastCapture := w.lastCapture.map fun c => (c.1, true) } } }
      let report (outcome : CycleOutcome) : Report :=
        .cycle s.stu.cycle h.record outcome s.stu.period s.stu.periodValid (captures false)
      let goesOn := s.pgs.panel = none ∨ anyUnfinished s = true
      let others (i : Item) := ∃ j ∈ workList s, j ≠ i ∧ unfinishedIn s.pgs.panel (itemRec j s).state = true
      let wf := Table.wf ItemRecord.fresh s.pgs.items = true
      let lead (r : WindowRole) (v : LeadResult) (n : Fin 12) (i : Item) (t : State) : State :=
        if s.wmu.windows[n].active.role = r ∧ v = .none then
          raiseFault .leadMiss (s.wmu.windows[n].active.cls.getD .w) (some i) none (Int.ofNat n.val) t
        else t
      let skew (i : Item) (t : State) : State :=
        match skewFault s with
        | some d => raiseW .leadSkew (some i) none (Int.ofNat d) t
        | none => t
      (h.content = .empty → goesOn →
        atOpenOutcome s = told (enqueue (report (if h.record.isSome then .returned else .blank)) s)) ∧
      ((h.content = .unknown ∨ h.content = .surplus) → h.ejectDone = false → goesOn →
        atOpenOutcome s = told (enqueue (report (if h.returned then .returned else .held)) s)) ∧
      ((h.content = .unknown ∨ h.content = .surplus) → h.ejectDone = true → goesOn →
        (atOpenOutcome s).wmu.head = { h with content := .empty } ∧
        (atOpenOutcome s).lnk = (enqueue (report (if h.returned then .returned else .cleared)) s).lnk) ∧
      (∀ i, h.content = .item i → h.driveDone = false → (others i ∨ i ∈ workList s) → wf →
        (atOpenOutcome s).wmu.head = { h with content := .unknown } ∧
        (atOpenOutcome s).pgs = (placeReturned i s).pgs ∧ (atOpenOutcome s).sqc = (placeReturned i s).sqc ∧
        (atOpenOutcome s).lnk = (enqueue (report .returned) s).lnk) ∧
      (∀ i, h.content = .item i → h.driveDone = true → others i → wf →
        (drivenOutcome s ≠ .suspect →
          (atOpenOutcome s).wmu.head = { h with content := .empty } ∧
          itemRec i (atOpenOutcome s) = { state := .inserted, tries := (itemRec i s).tries, reason := none } ∧
          (atOpenOutcome s).lnk = (enqueue (report (drivenOutcome s)) s).lnk) ∧
        (drivenOutcome s = .suspect →
          (atOpenOutcome s).wmu.head = { h with content := .empty } ∧
          itemRec i (atOpenOutcome s) = { state := .suspect, tries := (itemRec i s).tries, reason := none } ∧
          (∀ n m : Fin 12,
            (∀ k : Fin 12, s.wmu.windows[k].active.role = .lead1 → s.wmu.windows[n].active.role = .lead1 ∧ n ≤ k) →
            (∀ k : Fin 12, s.wmu.windows[k].active.role = .lead2 → s.wmu.windows[m].active.role = .lead2 ∧ m ≤ k) →
            let halts (r : WindowRole) (v : LeadResult) (k : Fin 12) : Prop := s.wmu.windows[k].active.role = r ∧ v = .none ∧
              (s.wmu.windows[k].active.cls = some .s ∨ s.wmu.windows[k].active.cls = some .h)
            let faults := skew i (lead .lead2 h.lead2 m i (lead .lead1 h.lead1 n i s))
            (¬ halts .lead1 h.lead1 n → ¬ halts .lead2 h.lead2 m →
              (atOpenOutcome s).lnk = (enqueue (report .suspect) faults).lnk) ∧
            ((halts .lead1 h.lead1 n ∨ halts .lead2 h.lead2 m) →
              (atOpenOutcome s).msv.state = .halted ∧ (atOpenOutcome s).lnk = (enqueue
                (.cycle s.stu.cycle h.record .suspect s.stu.period s.stu.periodValid (captures true)) faults).lnk)))))

/-- INPUT_EDGE and the edges of BOARD_PRESENT and TAPE_END, where no window and no trigger takes the edge and no DWELL is ready to
end. An edge to the accepted level is none; another is the new accepted level, with the candidate count 0 (R48). A fall of BOARD_PRESENT sets board-away and
clears board-changed, and with a DIRECT or TAPE_IN panel open raises BOARD_LOST; a rise with board-away set sets board-changed and
clears it, and in RUNNING is then PANEL_START (R79, R80). A rise of TAPE_END reports the reel UNTHREADED unless it is JAMMED, and a
fall reports it READY and removes TAPE from the dwell reason set, which raises the trip where that empties it at rest in DWELL (R11,
R113, R114); in a tape-in run the rise before the end of the map is TAPE_COUNT (R121).
An edge to the accepted level, and the reel's report before TAPE_COUNT, are the model's (notes/assumptions/10.md and 26.md). -/
def Obligations.InputEdgesReachTheirOwners : Prop :=
  ∀ s : State, s.lnk.trailing = [] → (inDwell s && dwellEmpty s && s.msv.atRest) = false →
    (∀ n : Fin 12, s.wmu.windows[n].isOpen = false) →
    (∀ i : ChannelNo, ∀ src sense delay width, s.stu.channels[i].active.mode = .edge src sense delay width →
      s.stu.channels[i].trigger ≠ .opened) →
    let accepted (i : InputNo) (level : Bool) : State :=
      { s with wmu := { s.wmu with inputs := s.wmu.inputs.set i.val { raw := level, accepted := level, candidate := 0 } } }
    let away := accepted 6 false
    let lost := { away with pgs := { s.pgs with boardAway := true, boardChanged := false } }
    let tapeSent (t : State) (reel : ReelState) : State :=
      enqueue (.tape .reel s.tmu.position s.tmu.mapLength reel none) t
    (∀ (i : InputNo) (e : Edge), s.wmu.inputs[i].accepted = (e == .rise) → exec (.inputEdge i e) s = .next s) ∧
    (∀ (i : InputNo) (e : Edge), i ≠ 6 → i ≠ 7 → s.wmu.inputs[i].accepted ≠ (e == .rise) →
      exec (.inputEdge i e) s = .next (accepted i (e == .rise))) ∧
    (∀ e : Edge, exec (.inputEdge 6 e) s = exec (match e with | .fall => .boardPresentFall | .rise => .boardPresentRise) s ∧
      exec (.inputEdge 7 e) s = exec (match e with | .fall => .tapeEndFall | .rise => .tapeEndRise) s) ∧
    (s.wmu.inputs[(6 : InputNo)].accepted = true → (s.pgs.panel = none ∨ s.pgs.panel = some .tapeOut) →
      exec .boardPresentFall s = .next lost) ∧
    (s.wmu.inputs[(6 : InputNo)].accepted = true → (s.pgs.panel = some .direct ∨ s.pgs.panel = some .tapeIn) →
      exec .boardPresentFall s = .next (reportState (stateView s)
        (raiseFault .boardLost .s none none (Int.ofNat s.pgs.number.toNat) lost))) ∧
    (s.wmu.inputs[(6 : InputNo)].accepted = false → s.pgs.boardAway = false →
      exec .boardPresentRise s = .next (accepted 6 true)) ∧
    (s.wmu.inputs[(6 : InputNo)].accepted = false → s.pgs.boardAway = true → isRunning s = false →
      exec .boardPresentRise s =
        .next { accepted 6 true with pgs := { s.pgs with boardChanged := true, boardAway := false } }) ∧
    (s.wmu.inputs[(6 : InputNo)].accepted = false → s.pgs.boardAway = true → isRunning s = true →
      exec .boardPresentRise s =
        exec .panelStart { accepted 6 true with pgs := { s.pgs with boardChanged := true, boardAway := false } }) ∧
    (s.wmu.inputs[(7 : InputNo)].accepted = false → (inRun s = false ∨ runMode s ≠ some .tapeIn ∨
        s.tmu.mapLength ≤ s.tmu.position) →
      exec .tapeEndRise s = .next (if s.tmu.jammed then accepted 7 true else tapeSent (accepted 7 true) .unthreaded)) ∧
    (s.wmu.inputs[(7 : InputNo)].accepted = false → inRun s = true → runMode s = some .tapeIn →
      s.tmu.position < s.tmu.mapLength →
      exec .tapeEndRise s = .next (reportState (stateView s)
        (raiseD .tapeCount none none (Int.ofNat (s.tmu.mapLength - s.tmu.position))
          (if s.tmu.jammed then accepted 7 true else tapeSent (accepted 7 true) .unthreaded)))) ∧
    (s.wmu.inputs[(7 : InputNo)].accepted = true → s.msv.dwell.tape = false →
      exec .tapeEndFall s = .next (if s.tmu.jammed then accepted 7 false else tapeSent (accepted 7 false) .ready)) ∧
    (s.wmu.inputs[(7 : InputNo)].accepted = true → s.msv.dwell.tape = true →
      let t := if s.tmu.jammed then accepted 7 false else tapeSent (accepted 7 false) .ready
      let dwell : DwellSet := { s.msv.dwell with tape := false }
      ((s.msv.state ≠ .running .dwell ∨ dwell ≠ .none ∨ s.msv.atRest = false) →
        exec .tapeEndFall s = .next (reportState (stateView s) { t with msv := { s.msv with dwell := dwell } })) ∧
      (s.msv.state = .running .dwell → dwell = .none → s.msv.atRest = true →
        exec .tapeEndFall s = .next (reportState (stateView s) (raiseTrip
          { t with msv := { s.msv with dwell := dwell, state := .running .cycling, finishing := false } }))))

/-- PANEL_START in RUNNING of mode DIRECT or TAPE_IN with no panel open, a board present and cycled in, and no item in the chain, the redo
queue and the head, as a panel end leaves them: the staged setup is adopted, every item of the work list is PENDING with no tries, or
SKIPPED where its step says so, the panel opens with its number up by one, board-changed is clear and BOARD leaves the dwell reason set.
In DIRECT STARVED is added where no unskipped item has an ENABLED dispenser and a target in reach; it is not where such an item is the
first, or no step has a barrier. With the set empty at rest the run goes on. Without a panel start allowed it does nothing (R11, R74,
R79, R92, R104). In a run this is the last part of BOARD_PRESENT_RISE.
The test for panel end. With an item unfinished, or no panel open, it does nothing. Otherwise a PANEL report of ending COMPLETE is
queued, the panel is closed, and a board's panel pulses BOARD_RELEASE, unless it is high already. In RUNNING the panels remaining go
down by one, where they are not 0; at 0 the run ends, CYCLING as STOPPING; where it goes on, BOARD enters the dwell reason set for a
board and a TAPE_OUT run starts its next pass. A TAPE_OUT pass appends PANEL_END and BLANK at the map length, as far as the map takes
them, with one TAPE_FULL for what it does not, a TAPE_GAP pulse for what it does, held behind one that runs, and a TAPE report of
cause PASS_END (R16, R17, R82, R117).
PANEL_START as a command of its own is the model's choice (notes/assumptions/12.md). -/
def Obligations.PanelsStartWithABoard : Prop :=
  (∀ s : State, s.lnk.trailing = [] →
      (mayStartPanel s = false → (inDwell s && dwellEmpty s && s.msv.atRest) = false → exec .panelStart s = .next s) ∧
      (∀ m : RunMode, (m = .direct ∨ m = .tapeIn) → isRunning s = true → runMode s = some m → s.pgs.panel = none →
        s.pgs.boardChanged = true → boardPresent s = true → (∀ c ∈ s.sqc.chain, c.holds = none) → s.sqc.redo = [] →
        headItem s = none →
        let setup := s.pgs.staged.getD s.pgs.active
        let u : State := { s with pgs := { s.pgs with active := setup } }
        let unskipped (i : Item) : Prop :=
          (i.step.val < s.store.stepCount ∧ (setup.image i.image).enabled = true) ∧ (stepOf i s).skip = false
        let takes (i : Item) : Prop := unskipped i ∧ dispenserEnabled i s = true ∧ reach i u = 0
        (∃ i, unskipped i) →
        ∃ t starved, exec .panelStart s = .next t ∧ t.pgs.panel = some m ∧ t.pgs.number = s.pgs.number + 1 ∧
          t.pgs.boardChanged = false ∧ t.pgs.active = setup ∧ t.pgs.staged = none ∧
          (∀ i : Item, i.step.val < s.store.stepCount → (setup.image i.image).enabled = true → itemRec i t =
            { state := if (stepOf i s).skip then .skipped else .pending, tries := 0, reason := none }) ∧
          (m = .direct → (∀ i, ¬ takes i) → starved = true) ∧
          ((m = .tapeIn ∨ (∃ i, takes i ∧ ((∀ j, unskipped j → i.key ≤ j.key) ∨
            ∀ j, unskipped j → (stepOf j s).barrier = false))) → starved = s.msv.dwell.starved) ∧
          (let dwell : DwellSet := { s.msv.dwell with board := false, starved := starved }
           (s.msv.state = .running .dwell → dwell = .none → s.msv.atRest = true →
              t.msv.state = .running .cycling ∧ t.msv.trip = true ∧ t.msv.brake = false) ∧
           ((s.msv.state ≠ .running .dwell ∨ dwell ≠ .none ∨ s.msv.atRest = false) →
              t.msv = { s.msv with dwell := dwell })) ∧
          t.sqc = s.sqc ∧ t.tmu = s.tmu ∧ t.wmu = s.wmu ∧ t.mot = s.mot ∧ t.fau = s.fau ∧ t.store = s.store)) ∧
  (∀ s : State,
      ((s.pgs.panel = none ∨ anyUnfinished s = true) → panelTest s = s) ∧
      (∀ m, s.pgs.panel = some m → anyUnfinished s = false →
        let board := m = .direct ∨ m = .tapeIn
        let closed (t : State) : State :=
          { t with pgs := { t.pgs with
              panel := none, boardChanged := false
              boardRelease := if m = .tapeOut then t.pgs.boardRelease else some (t.pgs.boardRelease.getD 0) } }
        let sent := closed (enqueue (.panel s.pgs.number m .complete (workList s).length (itemCounts s)) s)
        let less (r : RunRecord) : State :=
          { sent with msv := { s.msv with run := some { r with remaining := r.remaining - 1 } } }
        ((isRunning s = false ∨ s.msv.run = none) → panelTest s = if board then sent else passEndAppend sent) ∧
        (∀ r, isRunning s = true → s.msv.run = some r → r.remaining ≠ 1 →
          let counted := if r.remaining = 0 then sent else less r
          panelTest s = if board then { counted with msv := { counted.msv with dwell := { s.msv.dwell with board := true } } }
            else startPanel .tapeOut (passEndAppend counted)) ∧
        (∀ r, s.msv.state = .running .cycling → s.msv.run = some r → r.remaining = 1 →
          let lastPanel : State :=
            { sent with msv := { s.msv with state := .stopping, run := some { r with remaining := 0 } } }
          panelTest s = if board then lastPanel else passEndAppend lastPanel)) ∧
      (let n := s.tmu.mapLength
       let gap (two : Bool) (t : Tmu) : Tmu := if s.tmu.gap.isSome ∨ s.tmu.gapHeld ≠ [] then
         { t with gapHeld := t.gapHeld ++ [two] } else { t with gap := some (two, 0) }
       let told (t : State) : State := enqueue (.tape .passEnd t.tmu.position t.tmu.mapLength (reelState t) (some n)) t
       let endMap := Table.write .blank s.tmu.map n .panelEnd
       let both : Tmu := { s.tmu with map := Table.write .blank endMap (n + 1) .blank, mapLength := n + 2 }
       (n + 2 ≤ 4096 → passEndAppend s = told { s with tmu := gap true both }) ∧
       (n = 4095 →
         let t := raiseD .tapeFull none none 4096 { s with tmu := { s.tmu with map := endMap, mapLength := n + 1 } }
         passEndAppend s = told { t with tmu := gap false t.tmu }) ∧
       (4096 ≤ n → passEndAppend s = told (raiseD .tapeFull none none 4096 s))))

/-! ### The chain and the dispensers -/

/-- VSTROBE_RISE and VSTROBE_FALL. A rise already accepted is none; one with the verdict window closed or decided changes the input
and the code alone. The first in an open window decides it: PASS on a LOADED slot makes it PASSED and judged, with the verdict in
the dispenser's history and its failure count 0; a failure makes it REJECTED and judged and returns the item with a try; NO_PART on a slot
without an item makes it EMPTY, and any other code there is STRAY_PART with the stray flag (R96, R97, R98, R102).
A verdict on an item is entered at its dispenser: the history keeps the last 8; PASS sets the failure count to 0, FAIL_VALUE adds
one, FAIL_POLARITY adds one for a POLARIZED dispenser, NO_PART leaves it. An ENABLED dispenser whose history then holds as many NO_PART as
the depletion threshold becomes DEPLETED with a DISPENSER report; one whose raised failure count reaches the suspect threshold becomes
SUSPENDED with the report and REEL_SUSPECT (R102, R103).
VERIFY_CLOSE with the verdict window undecided gives FAIL_VALUE to the slot at V and raises VERIFIER_SILENT with the number that VSEL
names; the window closes in every case (R96).
The order of the parts and of the reports of a verdict, and that a rise already accepted and a fall at a low level do
nothing, are the model's reading (notes/assumptions/10.md and 26.md). -/
def Obligations.VerdictsJudgeTheSlot : Prop :=
  (∀ (c : VCode) (s : State), s.lnk.trailing = [] → (s.pgs.panel = none ∨ anyUnfinished s = true) →
      let v : Filter := { raw := true, accepted := true, candidate := 0 }
      let slot := slotAt s.sqc.v s
      let struck : State := { s with sqc := { s.sqc with vstrobe := v, vcode := c } }
      let decided : State := { s with sqc := { s.sqc with vstrobe := v, vcode := c, verdict := .decided } }
      let code : Int := match c with | .noPart => 0 | .pass => 1 | .failValue => 2 | .failPolarity => 3
      (s.sqc.vstrobe.accepted = true → exec (.vstrobeRise c) s = .next s ∧
        exec .vstrobeFall s = .next { s with sqc := { s.sqc with vstrobe := { raw := false, accepted := false, candidate := 0 } } }) ∧
      (s.sqc.vstrobe.accepted = false → exec .vstrobeFall s = .next s) ∧
      (s.sqc.vstrobe.accepted = false → s.sqc.verdict ≠ .undecided → exec (.vstrobeRise c) s = .next struck) ∧
      (s.sqc.vstrobe.accepted = false → s.sqc.verdict = .undecided →
        (∀ i, slot.content = .item i .loaded → c = .pass →
          let n := (stepOf i s).dispenser
          exec (.vstrobeRise c) s = .next
            (setSlot s.sqc.v { slot with content := .item i .passed, judged := true }
              (setDispenserRec n { s.sqc.dispensers[n] with history := verdictAdd s.sqc.dispensers[n].history .pass
                                                            failures := 0 } decided))) ∧
        (∀ i, slot.content = .item i .loaded → c ≠ .pass →
          exec (.vstrobeRise c) s = .next (reportState (stateView s) (panelTest (returnWithTry i
            (setSlot s.sqc.v { slot with content := .item i .rejected, judged := true } (enterVerdict i c decided)))))) ∧
        ((∀ i st, slot.content ≠ .item i st) → c = .noPart →
          exec (.vstrobeRise c) s = .next
            (setSlot s.sqc.v { content := .empty, stray := false, judged := true } decided)) ∧
        ((∀ i st, slot.content ≠ .item i st) → c ≠ .noPart →
          exec (.vstrobeRise c) s = .next (raiseW .strayPart none (some s.sqc.v) code
            (setSlot s.sqc.v { content := slot.content, stray := true, judged := true } decided))))) ∧
  (∀ (i : Item) (c : VCode) (s : State),
      let n := (stepOf i s).dispenser
      let old := s.sqc.dispensers[n]
      let history := if old.history.length < 8 then old.history ++ [c] else (old.history ++ [c]).drop (old.history.length - 7)
      let raised := c = .failValue ∨ (c = .failPolarity ∧ old.cls = .polarized)
      let failures := if c = .pass then 0 else if raised then min (old.failures + 1) 255 else old.failures
      let entry (st : DispenserState) : Dispenser := { old with state := st, history := history, failures := failures }
      let entered (st : DispenserState) : State :=
        { s with sqc := { s.sqc with dispensers := s.sqc.dispensers.set n.val (entry st) } }
      let depleted := c = .noPart ∧ s.store.depletion ≤ history.count .noPart
      let suspect := raised ∧ s.store.suspect ≤ failures
      ((old.state ≠ .enabled ∨ (¬ depleted ∧ ¬ suspect)) → enterVerdict i c s = entered old.state) ∧
      (old.state = .enabled → depleted →
        enterVerdict i c s = enqueue (.dispenser n.val .depleted .depletion history) (entered .depleted)) ∧
      (old.state = .enabled → suspect →
        enterVerdict i c s = raiseD .reelSuspect (some i) (some s.sqc.v) (Int.ofNat n.val)
          (enqueue (.dispenser n.val .suspended .suspect history) (entered .suspended)))) ∧
  (∀ s : State,
      (s.sqc.verdict ≠ .undecided → atVerifyClose s = { s with sqc := { s.sqc with verdict := .closed } }) ∧
      (s.sqc.verdict = .undecided → ∃ item,
        atVerifyClose s = panelTest
          (let t := raiseW .verifierSilent item (some s.sqc.v) (Int.ofNat s.sqc.vsel) (applyVerdict .failValue s)
           { t with sqc := { t.sqc with verdict := .closed } }) ∧
        (∀ i, item = some i ↔ ∃ st, (slotAt s.sqc.v s).content = .item i st)))

/-- One indexing of the chain keeps one slot for each position; a slot that holds an item LOADED or PASSED, or no item, without the stray
flag, moves up by one position unchanged, but at V, where it must have been judged. What passes its dispenser still ASSIGNED leaves an
EMPTY slot and its item is returned without a try; an item passing V unjudged goes back to PENDING and its slot is UNKNOWN, as is any
other slot there unjudged; what passes R REJECTED or stray leaves an UNKNOWN slot with the stray flag clear; a slot that meets none of
these is unchanged. One indexing is the slot at Q leaving, the moves, the assignment at position 1, VSEL and the verdict window, the fire
frame, then starvation and the panel end; INDEX makes it in DIRECT and TAPE_OUT, and outside RUNNING and STOPPING sets VSEL to 63 with no
verdict window (R88, R89).
Assignment. From the redo queue it takes the oldest item whose dispenser is ENABLED and whose target is in reach; from the work list
the first PENDING item of that kind, which no barrier stops: an item with BARRIER set is taken only when no item before it is
unfinished, but for those that the search abandons as out of reach. The redo queue comes first, and with no panel open the new
slot is EMPTY. Such an item is taken wherever there is one, and items out of reach met before it become ABANDONED with TARGET_RANGE and
leave the queue (R90, R91, R92). -/
def Obligations.SlotsMoveUpAndAreAssigned : Prop :=
  (∀ s : State,
      ((chainIndex s).sqc.chain.length = max s.sqc.chain.length 1) ∧
      (∀ (k : Nat) (h : k + 1 < s.sqc.chain.length),
        (s.sqc.chain[k].content = .empty ∨ s.sqc.chain[k].content = .unknown ∨
          ∃ i, s.sqc.chain[k].content = .item i .loaded ∨ s.sqc.chain[k].content = .item i .passed) →
        s.sqc.chain[k].stray = false → (k + 1 = s.sqc.v → s.sqc.chain[k].judged = true) →
        (chainIndex s).sqc.chain[k + 1]? = some s.sqc.chain[k]) ∧
      (∀ (p : Nat) (i : Item) (stray judged : Bool), p ≠ s.sqc.v → p ≠ s.sqc.r →
        s.sqc.dispensers[(stepOf i s).dispenser].position = p →
        passSlot p { content := .item i .assigned, stray := stray, judged := judged } s =
          (placeReturned i s, { content := .empty, stray := stray, judged := judged })) ∧
      (∀ (i : Item) (stray : Bool), s.sqc.v ≠ s.sqc.r →
        passSlot s.sqc.v { content := .item i .loaded, stray := stray, judged := false } s =
          (setItemState i .pending s, { content := .unknown, stray := false, judged := false })) ∧
      (∀ (i : Item) (stray judged : Bool), s.sqc.v ≠ s.sqc.r →
        passSlot s.sqc.r { content := .item i .rejected, stray := stray, judged := judged } s =
          (s, { content := .unknown, stray := false, judged := judged })) ∧
      (∀ c : Slot, s.sqc.v ≠ s.sqc.r → c.judged = false →
        (∀ i, (c.content = .item i .loaded ∨ c.content = .item i .passed) →
          passSlot s.sqc.v c s = (setItemState i .pending s, { content := .unknown, stray := false, judged := false })) ∧
        ((c.content = .empty ∨ c.content = .unknown ∨ ∃ i, c.content = .item i .rejected) →
          passSlot s.sqc.v c s = (s, { content := .unknown, stray := false, judged := false }))) ∧
      (∀ c : Slot, s.sqc.v ≠ s.sqc.r → c.stray = true → (∀ i, c.content ≠ .item i .assigned) →
        passSlot s.sqc.r c s = (s, { content := .unknown, stray := false, judged := c.judged })) ∧
      (∀ (p : Nat) (c : Slot), (∀ i, c.content = .item i .assigned → s.sqc.dispensers[(stepOf i s).dispenser].position ≠ p) →
        (p = s.sqc.v → c.judged = true) → (p = s.sqc.r → c.stray = false ∧ ∀ i, c.content ≠ .item i .rejected) →
        passSlot p c s = (s, c)) ∧
      (∀ (p : Nat) (c d : Slot) (rest : List Slot), moveSlots p [] s = (s, []) ∧ moveSlots p [c] s = (s, []) ∧
        moveSlots p (c :: d :: rest) s =
          let first := passSlot p c s
          let others := moveSlots (p + 1) (d :: rest) first.1
          (others.1, first.2 :: others.2)) ∧
      (let moved := moveSlots 1 s.sqc.chain (slotLeaves (slotAt s.sqc.q s) s)
       let entered := assign moved.1
       let composed := composeFrame 1 (entered.2 :: moved.2) entered.1
       let vsel := match ((entered.2 :: moved.2)[s.sqc.v - 1]?.map (·.content)) with
         | some (.item i _) => (stepOf i entered.1).dispenser.val
         | _ => 63
       chainIndex s = panelTest (judgeStarved { composed.1 with sqc := { composed.1.sqc with
         chain := composed.2.1, frame := some composed.2.2, vsel := vsel, verdict := .undecided } })) ∧
      (inRun s = true → (runMode s = some .direct ∨ runMode s = some .tapeOut) →
        atIndex s = chainIndex { s with stu := { s.stu with indexFired := true } }) ∧
      (inRun s = false → atIndex s = { s with sqc := { s.sqc with vsel := 63, verdict := .closed } })) ∧
  (∀ s : State,
      (∀ (l : List Item) (i : Item), (searchRedo s l).chosen = some i →
        ∃ before after, l = before ++ i :: after ∧ dispenserEnabled i s = true ∧ outOfReach i s = false ∧
          ∀ j ∈ before, dispenserEnabled j s = false ∨ outOfReach j s = true) ∧
      (∀ (l : List Item) (i : Item), (searchPending s false l).chosen = some i →
        ∃ before after, l = before ++ i :: after ∧ (itemRec i s).state = .pending ∧ dispenserEnabled i s = true ∧
          outOfReach i s = false ∧
          (∀ j ∈ before, (itemRec j s).state = .pending → dispenserEnabled j s = false ∨ outOfReach j s = true) ∧
          ((stepOf i s).barrier = true → ∀ j ∈ before, unfinishedIn s.pgs.panel (itemRec j s).state = true →
            (itemRec j s).state = .pending ∧ dispenserEnabled j s = true ∧ outOfReach j s = true)) ∧
      (∀ (l : List Item), (searchPending s false l).chosen = none → (∀ j ∈ l, (stepOf j s).barrier = false) →
        ∀ j ∈ l, (itemRec j s).state = .pending → dispenserEnabled j s = false ∨ outOfReach j s = true) ∧
      (∀ i, (searchRedo s s.sqc.redo).chosen = some i → (assignSearch s).chosen = some i) ∧
      (s.pgs.panel = none → assign s = (s, { content := .empty, stray := false, judged := false })) ∧
      (∀ i, s.pgs.panel.isSome = true → (assignSearch s).chosen = some i →
        (assign s).2 = { content := .item i .assigned, stray := false, judged := false } ∧
        i ∉ (assign s).1.sqc.redo) ∧
      (let enabled (i : Item) : Bool := s.sqc.dispensers[(stepOf i s).dispenser].state == .enabled
       let near (i : Item) : Bool := runMode s != some .direct || reach i s == 0
       let pending (i : Item) : Bool := (itemRec i s).state == .pending
       let far (l : List Item) : List Item := l.filter fun j => enabled j && !near j
       (∀ (before after : List Item) (i : Item), enabled i = true → near i = true →
          (∀ j ∈ before, enabled j = false ∨ near j = false) →
          searchRedo s (before ++ i :: after) = { abandoned := far before, chosen := some i }) ∧
       (∀ l : List Item, (∀ j ∈ l, enabled j = false ∨ near j = false) →
          searchRedo s l = { abandoned := far l, chosen := none }) ∧
       (∀ (before after : List Item) (i : Item), pending i = true →
          (∀ j ∈ before, pending j = true → (stepOf j s).barrier = false ∧ (enabled j = false ∨ near j = false)) →
          let settled := ∀ j ∈ before, unfinishedIn s.pgs.panel (itemRec j s).state = true →
            pending j = true ∧ enabled j = true
          let passed := (far before).filter pending
          (enabled i = true → near i = true → ((stepOf i s).barrier = false ∨ settled) →
            searchPending s false (before ++ i :: after) = { abandoned := passed, chosen := some i }) ∧
          ((stepOf i s).barrier = true → ¬ settled →
            searchPending s false (before ++ i :: after) = { abandoned := passed, chosen := none })) ∧
       ((searchRedo s s.sqc.redo).chosen = none →
          let met := (searchRedo s s.sqc.redo).abandoned
          let scan := searchPending (met.foldl (fun t i => abandonItem i .range t) s) false (workList s)
          assignSearch s = { abandoned := met ++ scan.abandoned, chosen := scan.chosen })) ∧
      (∀ i, Table.wf ItemRecord.fresh s.pgs.items = true → itemRec i (abandonItem i .range s) =
        { state := .abandoned, tries := (itemRec i s).tries, reason := some .range }) ∧
      (s.pgs.panel.isSome = true →
        let left (i : Item) (t : State) : State :=
          { t with sqc := { t.sqc with redo := t.sqc.redo.filter fun j => decide (j ≠ i) } }
        let t := (assignSearch s).abandoned.foldl (fun t i =>
          raiseW .targetRange (some i) (some 1) (Int.ofNat (reach i t)) (left i (abandonItem i .range t))) s
        ((assignSearch s).chosen = none → assign s = (t, { content := .empty, stray := false, judged := false })) ∧
        (∀ i, (assignSearch s).chosen = some i →
          assign s = (left i (setItemState i .chained t), { content := .item i .assigned, stray := false, judged := false }))))

/-- The fire frame holds a dispenser exactly where an ASSIGNED slot stands at the position of its item's ENABLED dispenser; composing it
changes no slot but those of a dispenser that is DEPLETED or SUSPENDED. At FIRE in RUNNING and STOPPING the slot of a dispenser that is still
ENABLED becomes LOADED and the frame is sent; with none held nothing happens, and outside those states nothing is fired. So for a frame
of any number of dispensers, in one event: the slots of those still ENABLED become LOADED and they are sent; the others' slots become EMPTY,
their items returned without a try, and every other slot and all else stay. An empty frame sends nothing (R93, R94, R95).
That a new frame replaces one being sent, and the order of several returns, are the model's choice (notes/assumptions/24.md
and 47.md). -/
def Obligations.TheFireFrameIsComposedAndFired : Prop :=
  ∀ s : State,
    (∀ (chain : List Slot) (n : Nat), n ∈ (composeFrame 1 chain s).2.2 ↔
      ∃ (k : Nat) (i : Item), (∃ c, chain[k]? = some c ∧ c.content = .item i .assigned) ∧
        (stepOf i s).dispenser.val = n ∧ s.sqc.dispensers[(stepOf i s).dispenser].position = k + 1 ∧
        s.sqc.dispensers[(stepOf i s).dispenser].state = .enabled) ∧
    (∀ (chain : List Slot), (composeFrame 1 chain s).2.1.length = chain.length ∧
      ∀ (k : Nat) (c : Slot), chain[k]? = some c → (composeFrame 1 chain s).2.1[k]? = some c ∨
        ∃ i, c.content = .item i .assigned ∧ (composeFrame 1 chain s).2.1[k]? = some { c with content := .empty } ∧
          (s.sqc.dispensers[(stepOf i s).dispenser].state = .depleted ∨
            s.sqc.dispensers[(stepOf i s).dispenser].state = .suspended)) ∧
    ((inRun s = false ∨ s.sqc.frame = none) → atFire s = s) ∧
    (∀ (d : Fin 48) (i : Item) (st : Bool × Bool), inRun s = true → s.sqc.frame = some [d.val] →
      slotAt s.sqc.dispensers[d].position s = { content := .item i .assigned, stray := st.1, judged := st.2 } →
      (s.sqc.dispensers[d].state = .enabled →
        atFire s = { s with sqc := { s.sqc with
          frame := none, dsp := some { frame := [d.val], elapsed := 0 }
          chain := s.sqc.chain.set (s.sqc.dispensers[d].position - 1)
            { content := .item i .loaded, stray := st.1, judged := st.2 } } }) ∧
      (s.sqc.dispensers[d].state ≠ .enabled →
        (atFire s).sqc.dsp = s.sqc.dsp ∧ (atFire s).pgs = (placeReturned i s).pgs ∧
        (atFire s).sqc.chain = s.sqc.chain.set (s.sqc.dispensers[d].position - 1)
          { content := .empty, stray := st.1, judged := st.2 })) ∧
    (∀ chain : List Slot,
      let own (k : Nat) (c : Slot) : Option (Item × Dispenser) := match c.content with
        | .item i .assigned =>
          let e := s.sqc.dispensers[(stepOf i s).dispenser]
          if e.position = k + 1 then some (i, e) else none
        | _ => none
      let lapsed (e : Dispenser) : Bool := e.state == .depleted || e.state == .suspended
      (composeFrame 1 chain s).2.2 = chain.zipIdx.filterMap (fun c => (own c.2 c.1).bind fun o =>
        if o.2.state = .enabled then some (stepOf o.1 s).dispenser.val else none) ∧
      (composeFrame 1 chain s).1 = (chain.zipIdx.filterMap (fun c => (own c.2 c.1).bind fun o =>
        if lapsed o.2 then some o.1 else none)).foldl (fun t i => placeReturned i t) s ∧
      (composeFrame 1 chain s).2.1 = chain.zipIdx.map (fun c =>
        if ((own c.2 c.1).any fun o => lapsed o.2) then { c.1 with content := .empty } else c.1)) ∧
    (∀ frame : List (Fin 48), inRun s = true → s.sqc.frame = some (frame.map (·.val)) → frame.Nodup →
      (∀ d ∈ frame, 1 ≤ s.sqc.dispensers[d].position) →
      (∀ d ∈ frame, ∀ e ∈ frame, d ≠ e → s.sqc.dispensers[d].position ≠ s.sqc.dispensers[e].position) →
      let slot (d : Fin 48) : Slot := slotAt s.sqc.dispensers[d].position s
      let held (d : Fin 48) : Option Item := match (slot d).content with
        | .item i .assigned => some i
        | _ => none
      let enabled (d : Fin 48) : Bool := s.sqc.dispensers[d].state == .enabled
      let fired := (frame.filter fun d => (held d).isSome && enabled d).map (·.val)
      let lost := (frame.filterMap fun d => if enabled d then none else held d).foldl (fun u i => placeReturned i u) s
      let t := atFire s
      t = { s with pgs := lost.pgs, sqc := { s.sqc with
          frame := none, chain := t.sqc.chain, redo := lost.sqc.redo
          dsp := if fired = [] then s.sqc.dsp else some { frame := fired, elapsed := 0 } } } ∧
      (∀ d ∈ frame, ∀ i, held d = some i →
        t.sqc.chain[s.sqc.dispensers[d].position - 1]? =
          some { slot d with content := if enabled d then .item i .loaded else .empty }) ∧
      (∀ k, (∀ d ∈ frame, s.sqc.dispensers[d].position ≠ k + 1 ∨ held d = none) → t.sqc.chain[k]? = s.sqc.chain[k]?)) ∧
    (inRun s = true → s.sqc.frame = some [] → atFire s = { s with sqc := { s.sqc with frame := none } })

/-- A returned item. With a try its tries go up by one, and where they then equal the maximum tries it is ABANDONED with reason TRIES and
ITEM_ABANDONED is raised. Otherwise it joins the newest end of the redo queue in state REDO, in a run of mode DIRECT or TAPE_OUT or, with
no run active, under an open panel of such a mode, while the queue holds fewer than 16 items; else it is PENDING. Every other
item's record is unchanged (R77). -/
def Obligations.ReturnedItemsAreQueuedOrPend : Prop :=
  ∀ (i : Item) (s : State), Table.wf ItemRecord.fresh s.pgs.items = true →
    let mode : Option RunMode := match s.msv.run with
      | some r => some r.mode
      | none => s.pgs.panel
    let queued := (mode = some .direct ∨ mode = some .tapeOut) ∧ s.sqc.redo.length < 16
    let old := itemRec i s
    let others (t : State) : Prop := ∀ j, j ≠ i → itemRec j t = itemRec j s
    (queued → (placeReturned i s).sqc = { s.sqc with redo := s.sqc.redo ++ [i] } ∧
      itemRec i (placeReturned i s) = { state := .redo, tries := old.tries, reason := none } ∧ others (placeReturned i s)) ∧
    (¬ queued → (placeReturned i s).sqc = s.sqc ∧
      itemRec i (placeReturned i s) = { state := .pending, tries := old.tries, reason := none } ∧
      others (placeReturned i s)) ∧
    (old.tries + 1 = s.pgs.active.maxTries →
      (returnWithTry i s).sqc = s.sqc ∧
      itemRec i (returnWithTry i s) = { state := .abandoned, tries := old.tries + 1, reason := some .tries } ∧
      others (returnWithTry i s) ∧ (returnWithTry i s).fau.warnPending = true) ∧
    (old.tries + 1 ≠ s.pgs.active.maxTries →
      (queued → (returnWithTry i s).sqc = { s.sqc with redo := s.sqc.redo ++ [i] } ∧
        itemRec i (returnWithTry i s) = { state := .redo, tries := old.tries + 1, reason := none }) ∧
      (¬ queued → (returnWithTry i s).sqc = s.sqc ∧
        itemRec i (returnWithTry i s) = { state := .pending, tries := old.tries + 1, reason := none }) ∧
      others (returnWithTry i s)) ∧
    returnWithTry i s = (if old.tries + 1 = s.pgs.active.maxTries then raiseAbandoned i (returnTried i s) else returnTried i s) ∧
    (∀ t, raiseAbandoned i t = raiseW .itemAbandoned (some i) none (Int.ofNat (itemRec i t).tries) t)

/-- The ends of the fixed pulses and inputs: the dispenser bus goes idle (R95); BOARD_RELEASE goes low (R82); TAPE_GAP and TAPE_GAP_2 go low
and a held pulse waits, then begins with the TAPE_GAP_2 of its own pass end (R117); the flash clock changes half (R171); a pending
FAULT enters the dwell reason set (R10); the falls of LIMIT and STOP_LINE lower the accepted level and nothing else (R140, R168).
The lamps. Green is steady in CYCLING, flashing in DWELL and STOPPING; amber is steady with FAULT, BOARD, STARVED or TAPE in the dwell
reason set, else flashing with the warnings-pending flag set; red is steady in HALTED; each is off otherwise. A steady lamp's output is high
and a flashing one's follows the flash clock (R171).
The commands act whatever the timers have counted, by the model's choice (notes/assumptions/10.md, 11.md and 12.md). -/
def Obligations.FixedPulsesAndFallsEnd : Prop :=
  (∀ s : State,
      exec .dspSendDone s = .next { s with sqc := { s.sqc with dsp := none } } ∧
      exec .boardReleaseEnd s = .next { s with pgs := { s.pgs with boardRelease := none } } ∧
      (s.tmu.gap = none → exec .tapeGapEnd s = .next s) ∧
      (s.tmu.gap.isSome = true → exec .tapeGapEnd s =
        .next { s with tmu := { s.tmu with gap := none, gapWait := if s.tmu.gapHeld = [] then none else some 0 } }) ∧
      (∀ two rest, s.tmu.gap = none → s.tmu.gapHeld = two :: rest → exec .tapeGapHeldStart s =
        .next { s with tmu := { s.tmu with gap := some (two, 0), gapHeld := rest, gapWait := none } }) ∧
      ((s.tmu.gap.isSome = true ∨ s.tmu.gapHeld = []) → exec .tapeGapHeldStart s = .next s) ∧
      exec .flashClockToggle s =
        .next { s with fau := { s.fau with flashOn := !s.fau.flashOn, flashTimer := 0 } } ∧
      (s.lnk.trailing = [] → s.msv.faultPending = false → exec .pendingFaultAdd s = .next s) ∧
      (s.lnk.trailing = [] → s.msv.faultPending = true → exec .pendingFaultAdd s = .next (reportState (stateView s)
        { s with msv := { s.msv with faultPending := false, dwell := { s.msv.dwell with fault := true } } })) ∧
      exec .limitFall s = .next (if s.mot.limit.accepted then
        { s with mot := { s.mot with limit := { raw := false, accepted := false, candidate := 0 } } } else s) ∧
      exec .stopLineFall s = .next (if s.fau.stopLine.accepted then
        { s with fau := { s.fau with stopLine := { raw := false, accepted := false, candidate := 0 } } } else s)) ∧
  (∀ s : State,
      (s.msv.state = .running .cycling → lampGreen s = .steady) ∧
      ((s.msv.state = .running .dwell ∨ s.msv.state = .stopping) → lampGreen s = .flashing) ∧
      ((∀ sub, s.msv.state ≠ .running sub) → s.msv.state ≠ .stopping → lampGreen s = .off) ∧
      lampAmber s = (if s.msv.dwell.fault || s.msv.dwell.board || s.msv.dwell.starved || s.msv.dwell.tape then .steady
        else if s.fau.warnPending then .flashing else .off) ∧
      lampRed s = (if s.msv.state = .halted then .steady else .off) ∧
      (let level (l : Lamp) : Bool := match l with
         | .off => false
         | .steady => true
         | .flashing => s.fau.flashOn
       pinGreen s = level (lampGreen s) ∧ pinAmber s = level (lampAmber s) ∧ pinRed s = level (lampRed s)))

/-! ### Axes -/

/-- HOME_SHAFT_PHASE in HOMING with every axis homed and none to be homed, no sync revolution and the shaft at rest: with the angle
unsynchronized or the shaft off home the trip is raised for a sync revolution; otherwise the state is STOPPED, and HOME_DONE with result DONE
follows the STATE report (R19, R20). HOME_ACTIVITIES_OVER after a STOP, with no axis HOMING, no motion in flight, the trip off and the
shaft at rest: UNHOMED with the brake applied, and HOME_DONE with result ABORTED (R4, R20). Where that does not hold, neither does anything.
The home inputs and the search limit, with another axis still searching. A rise homes an axis that searches in its search direction:
IDLE, its commanded position, and for X and Y its feedback count, loaded with the home offset; SPAN's end gives generator C its switch
gap. A rise at any other time, and a rise or fall already accepted, changes the input alone or nothing. A fall ends a back-off, which
turns round with its tick, but goes on where a rise comes within that tick (R129, R137, R138). A tick that brings the search of an axis to its limit issues the pulses up to it and
raises HOME_FAIL with the axis number: the machine is HALTED and the axis UNHOMED; any other tick is not that event (R139).
That the commands do nothing elsewhere, that HOME ends before a sync revolution's first count and in a switch gap, and that a
search that is ending can reach its limit and is not homed by its edge, are the model's choice (notes/assumptions/10.md,
12.md, 42.md, 49.md and 51.md). -/
def Obligations.HomingEndsWithEverythingHome : Prop :=
  (∀ s : State, s.lnk.trailing = [] →
      let axes := ∀ a, (s.mot.axis a).homed = true ∧ (s.mot.axis a).homePending = false
      let phase := s.msv.state = .homing ∧ s.msv.home = some false ∧ axes ∧ s.msv.single = none ∧ s.msv.atRest = true
      let settled := s.msv.home = some true ∧ s.msv.atRest = true ∧ s.msv.trip = false ∧ motionInFlight s = false ∧
        ∀ a, (s.mot.axis a).state ≠ .homing
      let ended (m : MachineState) : State := { s with
        msv := { s.msv with state := m, finishing := false, home := none
                            single := if m = .unhomed then none else s.msv.single
                            brake := if m = .unhomed then true else s.msv.brake }
        stu := { s.stu with channels := (mapChannels (fun i c => c.quiet i) s).stu.channels } }
      let reported (r : DoneResult) (t : State) : State := enqueue (.homeDone r none) (enqueue (.state (stateView t)) t)
      (¬ phase → exec .homeShaftPhase s = .next s) ∧
      (phase → (s.stu.synced = false ∨ s.msv.offHome = true) → exec .homeShaftPhase s = .next { s with
        msv := { s.msv with single := some { kind := .sync, travel := 0, dropped := false }, trip := true, brake := false
                            commandedStop := false, commitPassed := false, heldThrough := false }
        stu := { s.stu with stallTimer := some { time := s.store.landmarks.stall, elapsed := 0 } } }) ∧
      (phase → s.stu.synced = true → s.msv.offHome = false →
        exec .homeShaftPhase s = .next (reported .done (ended .stopped))) ∧
      (¬ settled → exec .homeActivitiesOver s = .next s) ∧
      (settled → s.msv.state = .homing → exec .homeActivitiesOver s = .next (reported .aborted (ended .unhomed)))) ∧
  (∀ (a b : Axis) (s : State), s.lnk.trailing = [] → a ≠ b → (s.mot.axis b).state = .homing →
      (∃ back k n w e, (s.mot.axis b).drive = .search back k n w e) →
      let r := s.mot.axis a
      let f (level : Bool) : Filter := { raw := level, accepted := level, candidate := 0 }
      let number : Int := match a with | .x => 0 | .y => 1 | .span => 2 | .rot => 3
      (r.homeInput.accepted = true → exec (.homeInputRise a) s = .next s) ∧
      (∀ k n w e, r.homeInput.accepted = false → r.drive = .search true k n w e →
        exec (.homeInputRise a) s =
          .next (setAxisRec a { r with homeInput := f true, drive := .search true k n false e } s)) ∧
      (r.homeInput.accepted = false → (∀ k n w e, r.drive ≠ .search true k n w e) →
        (r.state ≠ .homing ∨ ∀ k n w, r.drive ≠ .search false k n w false) →
        exec (.homeInputRise a) s = .next (setAxisRec a { r with homeInput := f true } s)) ∧
      (∀ k n w, r.homeInput.accepted = false → r.state = .homing → r.drive = .search false k n w false →
        ∃ t, exec (.homeInputRise a) s = .next t ∧ t.msv = s.msv ∧ t.mot.axis a =
            { r with state := .idle, commanded := r.homeOffset, drive := .idle, tick := {}, homePending := false
                     feedback := if a = .x ∨ a = .y then r.homeOffset else r.feedback, homeInput := f true } ∧
          (a = .span → t.mot.cAxis = none ∧ t.mot.cGap = some 0) ∧
          ((a = .x ∨ a = .y) → t = { s with mot := t.mot })) ∧
      (r.homeInput.accepted = false → exec (.homeInputFall a) s = .next s) ∧
      (∀ back k n w e, r.homeInput.accepted = true → r.drive = .search back k n w e →
        exec (.homeInputFall a) s =
          .next (setAxisRec a { r with homeInput := f false, drive := .search back k n (w || back) e } s)) ∧
      (r.homeInput.accepted = true → (∀ k n w e, r.drive ≠ .search true k n w e) →
        exec (.homeInputFall a) s = .next (setAxisRec a { r with homeInput := f false } s)) ∧
      (∀ back k n w e, r.state = .homing → r.drive = .search back k n w e → serves a s = true → n < r.searchLimit →
        (n + (k - r.tick.given) < r.searchLimit → (inDwell s && dwellEmpty s && s.msv.atRest) = false →
          exec (.searchLimitReached a) s = .next s) ∧
        (r.searchLimit ≤ n + (k - r.tick.given) →
          ∃ t, exec (.searchLimitReached a) s = .next t ∧ t.msv.state = .halted ∧ (t.mot.axis a).state = .unhomed ∧
            (t.mot.axis a).drive = .idle ∧ (t.mot.axis a).tick = {} ∧
            (t.mot.axis a).commanded = movePosition a r.commanded
              (if (a = .rot) ↔ back = false then Int.ofNat (r.searchLimit - n) else -Int.ofNat (r.searchLimit - n)) ∧
            (s.fau.capture.locked = false → ∃ rec, t.fau.capture.content = some rec ∧ rec.kind = .homeFail ∧
              rec.cls = .s ∧ rec.item = none ∧ rec.detail = number))))

/-- The tick profile of a distance of at least 1, from rates that SET_AXIS takes. The ramp length is the first k at which the ramp rate
is the top rate, and the ramp count the largest up to it whose two ramps fit in the distance; the pulses of the ticks add up to the
distance, every tick carries from 1 pulse to the top rate, the first at most the start rate, and a distance within the start
rate is one tick (R146). -/
def Obligations.TickProfilesCoverTheirDistance : Prop :=
  ∀ (r : Rates) (n : Nat), r.Sound → 1 ≤ n →
    let long := rampLength r
    let ramp (k : Nat) : Nat := min (r.rs + k * r.a) r.rt
    let sum (m : Nat) : Nat := ((List.range m).map ramp).sum
    let count := rampCount r n long
    (ramp long = r.rt ∧ ∀ k < long, ramp k < r.rt) ∧
    (count ≤ long ∧ 2 * sum count ≤ n ∧ ∀ m ≤ long, 2 * sum m ≤ n → m ≤ count) ∧
    (tickProfile r n).sum = n ∧ (∀ k ∈ tickProfile r n, 1 ≤ k ∧ k ≤ r.rt) ∧
    (∀ k, (tickProfile r n).head? = some k → k ≤ r.rs) ∧
    (n ≤ r.rs → tickProfile r n = [n]) ∧
    (tickProfile r n).length = 2 * count + (n - 2 * sum count + (ramp count - 1)) / ramp count

/-- MOVE_START starts a HELD plan that has met its OPEN when no motion is in flight, its axes are IDLE and generator C is free if it is
needed: the plan is RUNNING, each of its axes is MOVING with the ticks and the direction of its leg, and C serves ROT if the plan moves it,
otherwise SPAN if it moves that; with no such plan it does nothing (R129, R133, R151). AXIS_RATE_ADOPT makes the pending rates of an axis with
no motion in flight or held the active ones, ahead of the motion that takes them up; during a motion it does nothing (R131). GEN_C_SWITCH_GAP_END passes C to SPAN of a planned move, or in HOMING, to SPAN or
else to ROT where that axis waits and no search of SPAN is to come; its search then starts at Rs of the adopted rates, by a back-off on an
axis that stands on its switch (R129, R137).
The commands act where they still can and otherwise do nothing, and the 20 µs, the start of the first tick and SPAN's
direction level at the start of a move of ROT and SPAN, and that a search waits for a service operation on its axis, are the
model's choice (notes/assumptions/10.md, 11.md, 12.md, 22.md, 31.md and 61.md). -/
def Obligations.PlansStartAndGeneratorCIsHandedOn : Prop :=
  ∀ s : State, s.lnk.trailing = [] →
    let free (p : Plan) : Prop := p.openMet = true ∧ motionInFlight s = false ∧
      (∀ l ∈ p.legs, (s.mot.axis l.axis).state = .idle) ∧
      ((∃ l ∈ p.legs, l.axis = .rot ∨ l.axis = .span) → s.mot.cAxis = none ∧ s.mot.cGap = none)
    ((∀ p, s.mot.held = some p → ¬ free p) → exec .moveStart s = .next s) ∧
    (∀ p, s.mot.held = some p → free p → (p.legs.map (·.axis)).Nodup →
      ∃ t, exec .moveStart s = .next t ∧ t = { s with mot := t.mot } ∧ t.mot.running = some p ∧ t.mot.held = none ∧
        (∀ l ∈ p.legs, t.mot.axis l.axis =
          { s.mot.axis l.axis with
            state := .moving, drive := .profile l.positive l.ticks, dirHigh := l.positive
            tick := { wait := if (s.mot.axis l.axis).style = .stepDir ∧ (s.mot.axis l.axis).dirHigh ≠ l.positive
                      then 20 else 0 } }) ∧
        (∀ a, (∀ l ∈ p.legs, l.axis ≠ a) → t.mot.axis a = s.mot.axis a) ∧
        ((∃ l ∈ p.legs, l.axis = .rot) → t.mot.cAxis = some .rot) ∧
        ((∀ l ∈ p.legs, l.axis ≠ .rot) → (∃ l ∈ p.legs, l.axis = .span) → t.mot.cAxis = some .span) ∧
        ((∀ l ∈ p.legs, l.axis ≠ .rot ∧ l.axis ≠ .span) → t.mot.cAxis = s.mot.cAxis)) ∧
    (∀ a,
      let r := s.mot.axis a
      let taken := r.drive ≠ .idle ∨ r.state = .moving ∨ r.state = .settling ∨
        (∃ p l, (s.mot.running = some p ∨ s.mot.held = some p) ∧ l ∈ p.legs ∧ l.axis = a) ∨ serviceAxis s = some a
      (¬ taken → r.stagedFlag = true →
        exec (.axisRateAdopt a) s = .next (setAxisRec a { r with rates := r.staged, stagedFlag := false } s)) ∧
      ((taken ∨ r.stagedFlag = false) → exec (.axisRateAdopt a) s = .next s)) ∧
    (s.mot.cGap = none → exec .genCSwitchGapEnd s = .next s) ∧
    (∀ p l, s.mot.cGap.isSome = true → s.mot.span.state = .moving → s.mot.span.drive = .profile p l →
      exec .genCSwitchGapEnd s = .next { s with mot := { s.mot with cGap := none, cAxis := some .span } }) ∧
    (s.mot.cGap.isSome = true → s.mot.span.state ≠ .moving → s.msv.home ≠ some false →
      exec .genCSwitchGapEnd s = .next { s with mot := { s.mot with cGap := none } }) ∧
    (let waits (b : Axis) : Prop :=
        (s.mot.axis b).state = .homing ∧ (s.mot.axis b).drive = .idle ∧ serviceAxis s ≠ some b
      let spanToCome : Prop := s.mot.span.state = .homing ∨ s.mot.span.homePending = true
      let searches (b : Axis) : State :=
        let r := s.mot.axis b
        let rates := if r.stagedFlag then r.staged else r.rates
        let p : Bool := (b == .rot) != r.homeInput.accepted
        setAxisRec b
          { r with rates := rates, stagedFlag := false, drive := .search r.homeInput.accepted rates.rs 0 false false
                   tick := { wait := if r.style = .stepDir ∧ r.dirHigh ≠ p then 20 else 0 }, dirHigh := p }
          { s with mot := { s.mot with cGap := none, cAxis := some b } }
      s.mot.cGap.isSome = true → s.mot.cAxis = none → s.mot.span.state ≠ .moving → s.msv.home = some false →
      ¬ waits .x → ¬ waits .y →
      (waits .span → exec .genCSwitchGapEnd s = .next (searches .span)) ∧
      (waits .rot → ¬ spanToCome → exec .genCSwitchGapEnd s = .next (searches .rot)) ∧
      (¬ waits .span → (¬ waits .rot ∨ spanToCome) →
        exec .genCSwitchGapEnd s = .next { s with mot := { s.mot with cGap := none } }))

/-- GENERATOR_TICK, with no DWELL ready to end, issues the pulses that the tick has still to issue and ends it; a generator with nothing
to issue does nothing. A profile goes on to its next tick; the last tick of a plan's axis, or of a jog, makes it SETTLING, frees generator C,
which ROT hands to a SPAN that waits after the switch gap, and after the last axis the settle timer starts; AXIS_LAST_TICK_END does the
same at that tick alone. Where the last tick of ROT in HOMING frees C, a SPAN that waits for its search takes it and searches. A homed X, Y or SPAN axis in a jog or a counted motion is not taken outside its soft limits: the tick that would
take it there stops at the limit and ends the motion, as does SOFT_LIMIT_WITHHOLD, which a tick within them is not. A search issues its
rate and turns round after its back-off; one that is ending leaves the axis UNHOMED. The feedback count of an INTERNAL loop test moves
with the pulses. Within a tick pulse j of k begins after ⌊1,000/k⌋ × j µs and is 5 µs high (R126, R128, R129, R133, R137, R139, R190,
R194).
That a tick command issues the rest of the tick in progress, what the commands of a last tick do elsewhere, and that a search
waits for a service operation on its axis, are the model's choice (notes/assumptions/12.md, 31.md and 61.md). -/
def Obligations.GeneratorTicksIssueTheirPulses : Prop :=
  ∀ (g : Generator) (a : Axis) (s : State), s.lnk.trailing = [] → (inDwell s && dwellEmpty s && s.msv.atRest) = false →
    (match g with | .a => a = .x | .b => a = .y | .c => s.mot.cAxis = some a) →
    let r := s.mot.axis a
    let signed (p : Bool) (k : Nat) : Int := if p then Int.ofNat k else -Int.ofNat k
    let moved (p : Bool) (k : Nat) : AxisRec := { r with
      commanded := movePosition a r.commanded (signed p k)
      feedback := if internalLoop a s then movePosition .x r.feedback (signed p k) else r.feedback }
    let within (p : Bool) (k : Nat) : Prop := r.homed = false ∨ a = .rot ∨ ∃ top, softLimit a = some top ∧
      0 ≤ r.commanded + signed p k ∧ r.commanded + signed p k ≤ top
    let left (k : Nat) : Nat := k - r.tick.given
    let waits (p : Bool) : TickPhase := { wait := if r.style = .stepDir ∧ r.dirHigh ≠ p then 20 else 0 }
    let settling (v : AxisRec) : AxisRec :=
      { v with state := if v.state = .moving then .settling else v.state, drive := .idle, tick := {} }
    let freed : Option Axis := if a = .rot ∨ a = .span then none else s.mot.cAxis
    let timer : Settle := { time := s.store.settleTime, elapsed := 0 }
    let spanWaits := s.mot.span.state = .moving ∧ ∃ p l, s.mot.span.drive = .profile p l
    let noSearchWaits := s.msv.home ≠ some false ∨ (r.state ≠ .homing ∧
      ∀ b, (s.mot.axis b).state = .homing → (s.mot.axis b).drive ≠ .idle)
    let spanSearches (t : State) : State :=
      let v := s.mot.span
      let rates := if v.stagedFlag then v.staged else v.rates
      let back := v.homeInput.accepted
      setAxisRec .span
        { v with rates := rates, stagedFlag := false, drive := .search back rates.rs 0 false false, dirHigh := back
                 tick := { wait := if v.style = .stepDir ∧ v.dirHigh ≠ back then 20 else 0 } }
        { t with mot := { t.mot with cAxis := some .span } }
    (r.drive = .idle → exec (.generatorTick g) s = .next s ∧ exec (.axisLastTickEnd a) s = .next s ∧
      exec (.softLimitWithhold a) s = .next s) ∧
    (∀ p k l j, r.drive = .profile p (k :: j :: l) → r.tick.withheld = false → within p (left k) →
      exec (.generatorTick g) s = .next (setAxisRec a { moved p (left k) with drive := .profile p (j :: l), tick := {} } s) ∧
      exec (.axisLastTickEnd a) s = .next s ∧ exec (.softLimitWithhold a) s = .next s) ∧
    (∀ p k q, r.drive = .profile p [k] → r.tick.withheld = false → within p (left k) → s.mot.running = some q →
      serviceAxis s ≠ some a → 0 < s.store.settleTime → noSearchWaits →
      let t := setAxisRec a (settling (moved p (left k))) s
      (¬ (a = .rot ∧ spanWaits) → (∀ l ∈ q.legs, l.axis = a ∨ (s.mot.axis l.axis).drive = .idle) →
        let u : State := { t with mot := { t.mot with settle := some timer, cAxis := freed } }
        exec (.generatorTick g) s = .next u ∧ exec (.axisLastTickEnd a) s = .next u) ∧
      (¬ (a = .rot ∧ spanWaits) → (∃ l ∈ q.legs, l.axis ≠ a ∧ (s.mot.axis l.axis).drive ≠ .idle) →
        let u : State := { t with mot := { t.mot with cAxis := freed } }
        exec (.generatorTick g) s = .next u ∧ exec (.axisLastTickEnd a) s = .next u) ∧
      (a = .rot → spanWaits → (∃ l ∈ q.legs, l.axis = .span) →
        let u : State := { t with mot := { t.mot with cAxis := none, cGap := some 0 } }
        exec (.generatorTick g) s = .next u ∧ exec (.axisLastTickEnd a) s = .next u)) ∧
    (∀ p k, r.drive = .profile p [k] → r.tick.withheld = false → a = .rot → r.state = .moving → 0 < s.store.settleTime →
      s.msv.home = some false → s.mot.span.state = .homing → s.mot.span.drive = .idle → serviceAxis s ≠ some .span →
      s.mot.cGap = none →
      (∀ b, b = .x ∨ b = .y → (s.mot.axis b).state = .homing → (s.mot.axis b).drive ≠ .idle) →
      let t := spanSearches (setAxisRec .rot (settling (moved p (left k))) s)
      (∀ q, s.mot.running = some q → serviceAxis s ≠ some .rot → (∀ l ∈ q.legs, l.axis ≠ .span) →
        ((∀ l ∈ q.legs, l.axis = .rot ∨ (s.mot.axis l.axis).drive = .idle) →
          exec (.generatorTick g) s = .next { t with mot := { t.mot with settle := some timer } }) ∧
        ((∃ l ∈ q.legs, l.axis ≠ .rot ∧ (s.mot.axis l.axis).drive ≠ .idle) → exec (.generatorTick g) s = .next t)) ∧
      (serviceAxis s = some .rot →
        exec (.generatorTick g) s = .next { t with mot := { t.mot with serviceSettle := some timer } })) ∧
    (serviceAxis s = some a → 0 < s.store.settleTime → ¬ (a = .rot ∧ spanWaits) → noSearchWaits →
      let ended (v : AxisRec) : State :=
        let t := setAxisRec a (settling v) s
        { t with mot := { t.mot with serviceSettle := some timer, cAxis := freed } }
      (∀ p k, (r.drive = .profile p [k] ∨ r.drive = .jog p k true) → within p (left k) →
        exec (.generatorTick g) s = .next (ended (moved p (left k))) ∧
        exec (.axisLastTickEnd a) s = .next (ended (moved p (left k)))) ∧
      (∀ p k, r.drive = .jog p k false → r.tick.withheld = false → within p (left k) →
        exec (.generatorTick g) s = .next (setAxisRec a { moved p (left k) with tick := {} } s) ∧
        exec (.axisLastTickEnd a) s = .next s ∧ exec (.softLimitWithhold a) s = .next s) ∧
      (∀ p k e top, ((∃ l, r.drive = .profile p (k :: l)) ∨ r.drive = .jog p k e) → r.homed = true →
        softLimit a = some top → 0 ≤ r.commanded → r.commanded ≤ top → ¬ within p (left k) →
        let stopped : AxisRec := moved p (if p then (top - r.commanded).toNat else r.commanded.toNat)
        stopped.commanded = (if p then top else 0) ∧
        exec (.generatorTick g) s = .next (ended stopped) ∧ exec (.softLimitWithhold a) s = .next (ended stopped))) ∧
    (∀ back k n w, r.state = .homing → r.drive = .search back k n w false → n + left k < r.searchLimit →
      let p : Bool := (a == .rot) != back
      let back' := back && !w
      exec (.generatorTick g) s = .next (setAxisRec a
        { moved p (left k) with drive := .search back' k (n + left k) false false, dirHigh := (a == .rot) != back'
                                tick := waits ((a == .rot) != back') } s)) ∧
    (∀ back k n w, r.state = .homing → r.drive = .search back k n w true → n + left k < r.searchLimit →
      (s.msv.home = none ∨ (s.msv.home = some true ∧ ∃ b, b ≠ a ∧ (s.mot.axis b).state = .homing)) →
      let p : Bool := (a == .rot) != back
      let t := setAxisRec a { moved p (left k) with
        state := if r.homePending then .homing else .unhomed, homePending := false, drive := .idle, tick := {} } s
      let u : State := { t with mot := { t.mot with
        cAxis := freed, cGap := if a = .span then some 0 else s.mot.cGap } }
      exec (.generatorTick g) s = .next u ∧ exec (.axisLastTickEnd a) s = .next u) ∧
    (∀ p k, (∃ l, r.drive = .profile p (k :: l)) ∨ (∃ e, r.drive = .jog p k e) →
      (0 < r.tick.wait → axisMicro a s = setAxisRec a { r with tick := { r.tick with wait := r.tick.wait - 1 } } s) ∧
      (r.tick.wait = 0 → r.tick.time + 1 < 1000 → within p 1 →
        (r.tick.given < k → r.tick.time = 1000 / k * r.tick.given → axisMicro a s = setAxisRec a
          { moved p 1 with tick := { r.tick with given := r.tick.given + 1, time := r.tick.time + 1 }
                           pulse := if internalLoop a s then r.pulse else { high := 5, positive := p } } s) ∧
        ((k ≤ r.tick.given ∨ r.tick.time ≠ 1000 / k * r.tick.given) →
          axisMicro a s = setAxisRec a { r with tick := { r.tick with time := r.tick.time + 1 } } s))) ∧
    (internalLoop a s = true ↔
      ∃ b n m w c f e, s.mot.service = some (.loop b true n m w c f e) ∧ a = (match b with | .x => .x | .y => .y))

/-- SETTLE_END of a planned move with its settle timer running. With the following check passed and nothing HELD behind it,
the plan record is NONE, its axes are IDLE, or HOMING where home was pending, and TABLE leaves the dwell reason set, which raises the trip
where that empties it at rest in DWELL. A plan HELD behind it starts, where its OPEN is met and its axes and generator C are free, and
TABLE stays; one that cannot start stays HELD. Inside HOMING an axis whose home was pending begins its search: X and Y at once, SPAN, or ROT
with no search of SPAN to come, where C is free. A following error of X or Y beyond its tolerance is FOLLOWING: HALTED with every axis UNHOMED, and the
positions kept, as it is at the settle end of a jog. A jog otherwise ends with TEST_DONE, DONE, ABORTED by a STOP or FAILED by a fault, with
the commanded position. A loop test compares its positions, exactly in INTERNAL and by the tolerance in EXTERNAL, and starts its next move
in the other direction, of the next number of the sequence; after its sixteenth move, or when marked, it ends with TEST_DONE, the positions
of INTERNAL loaded back (R11, R133, R134, R137, R151, R152, R189, R190, R193, R194). Without a settle timer it does nothing. FEEDBACK_COUNT adds one to
or takes one from the feedback count, which holds at −65,536 and 131,071, but in an INTERNAL loop test on the axis (R126, R132, R194).
SETTLE_END acts while its timer runs, with the 20 µs and the start of the next tick, and a push of the table during an
INTERNAL test leaves no trace, by the model's choice (notes/assumptions/11.md, 22.md, 31.md and 58.md). -/
def Obligations.SettleEndsChecksTheFollowing : Prop :=
  ∀ s : State, s.lnk.trailing = [] →
    let bad (r : AxisRec) : Prop := r.homed = true ∧ r.following < (r.feedback - r.commanded).natAbs
    let ready := (inDwell s && dwellEmpty s && s.msv.atRest) = true
    let settled (r : AxisRec) : AxisRec :=
      if r.state = .settling then
        (if r.homePending then { r with state := .homing, homePending := false } else { r with state := .idle })
      else r
    let faulted (item : Option Item) (t : State) : Prop := t.msv.state = .halted ∧
      (∀ a, (t.mot.axis a).state = .unhomed ∧ (t.mot.axis a).commanded = (s.mot.axis a).commanded ∧
        (t.mot.axis a).feedback = (s.mot.axis a).feedback) ∧
      (s.fau.capture.locked = false → ∃ rec, t.fau.capture.content = some rec ∧ rec.kind = .following ∧ rec.cls = .h ∧
        rec.item = item ∧ (bad s.mot.x → bad s.mot.y → rec.detail = 2) ∧
        (bad s.mot.x → ¬ bad s.mot.y → rec.detail = 0) ∧ (¬ bad s.mot.x → bad s.mot.y → rec.detail = 1))
    let doneWith (done : TestDone) (t : State) : State :=
      let u := enqueue (.testDone done) t
      { u with mot := { u.mot with service := none, serviceSettle := none } }
    let result (e : EndCause) : DoneResult × Option FaultKind :=
      match e with | .none => (.done, none) | .stop => (.aborted, none) | .fault k => (.failed, some k)
    let quiet := s.mot.held = none ∧ s.mot.running = none ∧ s.msv.home = none ∧ s.msv.dwell.table = false
    ((s.mot.settle = none ∨ s.mot.running = none) → ¬ ready → exec (.settleEnd .planned) s = .next s) ∧
    (s.mot.serviceSettle = none → ¬ ready → exec (.settleEnd .service) s = .next s) ∧
    (∀ p st, s.mot.running = some p → s.mot.settle = some st → ¬ bad s.mot.x → ¬ bad s.mot.y → s.mot.held = none →
      s.msv.home = none → (p.legs.map (·.axis)).Nodup →
      ∃ t, exec (.settleEnd .planned) s = .next t ∧ t.mot.running = none ∧ t.mot.settle = none ∧
        (∀ a, t.mot.axis a = if ∃ l ∈ p.legs, l.axis = a then settled (s.mot.axis a) else s.mot.axis a) ∧
        t.msv.dwell = { s.msv.dwell with table := false } ∧
        (s.msv.state = .running .dwell → s.msv.atRest = true → t.msv.dwell = .none →
          t.msv.state = .running .cycling ∧ t.msv.trip = true) ∧
        ((s.msv.state ≠ .running .dwell ∨ s.msv.atRest = false ∨ t.msv.dwell ≠ .none) →
          t.msv = { s.msv with dwell := { s.msv.dwell with table := false } }) ∧
        t.wmu = s.wmu ∧ t.pgs = s.pgs ∧ t.sqc = s.sqc ∧ t.tmu = s.tmu ∧ t.fau = s.fau ∧ t.store = s.store) ∧
    (∀ p st h, s.mot.running = some p → s.mot.settle = some st → ¬ bad s.mot.x → ¬ bad s.mot.y → s.mot.held = some h →
      s.msv.home = none → s.mot.service = none → (p.legs.map (·.axis)).Nodup → (h.legs.map (·.axis)).Nodup → ¬ ready →
      let after (a : Axis) : AxisRec := if ∃ l ∈ p.legs, l.axis = a then settled (s.mot.axis a) else s.mot.axis a
      let starts := h.openMet = true ∧ (∀ l ∈ h.legs, (after l.axis).state = .idle) ∧
        ((∃ l ∈ h.legs, l.axis = .rot ∨ l.axis = .span) → s.mot.cAxis = none ∧ s.mot.cGap = none)
      ∃ t, exec (.settleEnd .planned) s = .next t ∧ t = { s with mot := t.mot } ∧ t.mot.settle = none ∧
        (starts → t.mot.running = some h ∧ t.mot.held = none ∧
          (∀ l ∈ h.legs, t.mot.axis l.axis = { after l.axis with
            state := .moving, drive := .profile l.positive l.ticks, dirHigh := l.positive
            tick := { wait := if (after l.axis).style = .stepDir ∧ (after l.axis).dirHigh ≠ l.positive then 20 else 0 } }) ∧
          (∀ a, (∀ l ∈ h.legs, l.axis ≠ a) → t.mot.axis a = after a) ∧
          ((∃ l ∈ h.legs, l.axis = .rot) → t.mot.cAxis = some .rot) ∧
          ((∀ l ∈ h.legs, l.axis ≠ .rot) → (∃ l ∈ h.legs, l.axis = .span) → t.mot.cAxis = some .span) ∧
          ((∀ l ∈ h.legs, l.axis ≠ .rot ∧ l.axis ≠ .span) → t.mot.cAxis = s.mot.cAxis)) ∧
        (¬ starts → t.mot.running = none ∧ t.mot.held = some h ∧ t.mot.cAxis = s.mot.cAxis ∧
          ∀ a, t.mot.axis a = after a)) ∧
    (∀ p st, s.mot.running = some p → s.mot.settle = some st → ¬ bad s.mot.x → ¬ bad s.mot.y → s.mot.held = none →
      s.msv.home = some false → s.msv.state = .homing → s.mot.service = none → (p.legs.map (·.axis)).Nodup →
      (∃ l ∈ p.legs, (s.mot.axis l.axis).state = .settling ∧ (s.mot.axis l.axis).homePending = true) →
      let after (a : Axis) : AxisRec := if ∃ l ∈ p.legs, l.axis = a then settled (s.mot.axis a) else s.mot.axis a
      let waits (a : Axis) : Prop := (after a).state = .homing ∧ (after a).drive = .idle
      let freeC := s.mot.cAxis = none ∧ s.mot.cGap = none
      let begins (a : Axis) : Prop := waits a ∧ (a = .span → freeC) ∧
        (a = .rot → freeC ∧ (after .span).state ≠ .homing ∧ (after .span).homePending = false)
      let searching (a : Axis) (r : AxisRec) : AxisRec :=
        let rates := if r.stagedFlag then r.staged else r.rates
        let positive : Bool := (a == .rot) != r.homeInput.accepted
        { r with rates := rates, stagedFlag := false, drive := .search r.homeInput.accepted rates.rs 0 false false
                 tick := { wait := if r.style = .stepDir ∧ r.dirHigh ≠ positive then 20 else 0 }, dirHigh := positive }
      ∃ t, exec (.settleEnd .planned) s = .next t ∧ t.mot.running = none ∧ t.mot.settle = none ∧
        (∀ a, (begins a → t.mot.axis a = searching a (after a)) ∧ (¬ begins a → t.mot.axis a = after a)) ∧
        (begins .span → t.mot.cAxis = some .span) ∧ (begins .rot → t.mot.cAxis = some .rot) ∧
        (¬ begins .span → ¬ begins .rot → t.mot.cAxis = s.mot.cAxis) ∧
        t = reportState (stateView s)
          { s with mot := t.mot, msv := { s.msv with dwell := { s.msv.dwell with table := false } } }) ∧
    (∀ p st, s.mot.running = some p → s.mot.settle = some st → (bad s.mot.x ∨ bad s.mot.y) → s.mot.service = none →
      ∃ t, exec (.settleEnd .planned) s = .next t ∧ faulted p.item t) ∧
    (∀ a counted e, s.mot.serviceSettle.isSome = true → s.mot.service = some (.jog a counted e) →
      ((bad s.mot.x ∨ bad s.mot.y) → ∃ t, exec (.settleEnd .service) s = .next t ∧ faulted none t ∧ t.mot.service = none) ∧
      (¬ bad s.mot.x → ¬ bad s.mot.y → quiet → ¬ ready →
        exec (.settleEnd .service) s = .next (doneWith
          { operation := .jog, result := (result e).1, kind := (result e).2, axis := some a, intern := none, moves := none
            mismatches := none, value := some (s.mot.axis a).commanded }
          (setAxisRec a (settled (s.mot.axis a)) s)))) ∧
    (∀ b intern n m w c f e, s.mot.serviceSettle.isSome = true → s.mot.service = some (.loop b intern n m w c f e) →
      ¬ ready →
      let a : Axis := match b with | .x => .x | .y => .y
      let r := s.mot.axis a
      let differ := if intern then r.feedback ≠ r.commanded else r.following < (r.feedback - r.commanded).natAbs
      let found := if differ then w + 1 else w
      (e = .none → m + 1 < 16 → (r.state = .settling ∨ r.state = .unhomed) →
        let next := (n * 2) % 32768 + (if n.testBit 14 != n.testBit 13 then 1 else 0)
        let p := decide ((m + 1) % 2 = 0)
        exec (.settleEnd .service) s = .next (setAxisRec a
          { r with state := if r.state = .settling then .moving else .unhomed
                   drive := .profile p (tickProfile r.rates (next % 1024 + 1))
                   tick := { wait := if intern = false ∧ r.style = .stepDir ∧ r.dirHigh ≠ p then 20 else 0 }
                   dirHigh := if intern then r.dirHigh else p }
          { s with mot := { s.mot with service := some (.loop b intern next (m + 1) found c f .none)
                                       serviceSettle := none } })) ∧
      ((e ≠ .none ∨ 16 ≤ m + 1) → quiet →
        exec (.settleEnd .service) s = .next (doneWith
          { operation := .loopTest, result := (result e).1, kind := (result e).2, axis := some a, intern := some intern
            moves := some (m + 1), mismatches := some found, value := none }
          (setAxisRec a { settled r with commanded := if intern then c else r.commanded
                                         feedback := if intern then f else r.feedback } s)))) ∧
    (∀ (a : TableAxis) (positive : Bool),
      let axis : Axis := match a with | .x => .x | .y => .y
      let r := s.mot.axis axis
      (∀ n m b c f e, s.mot.service = some (.loop a true n m b c f e) → exec (.feedbackCount a positive) s = .next s) ∧
      ((∀ n m b c f e, s.mot.service ≠ some (.loop a true n m b c f e)) →
        exec (.feedbackCount a positive) s = .next (setAxisRec axis
          { r with feedback := if positive then max (-65536) (min 131071 (r.feedback + 1))
                               else max (-65536) (min 131071 (r.feedback - 1)) } s)))

/-! ### Faults -/

/-- The capture record. A class W fault leaves it. A fault of another class that finds it unlocked fills it, locks it and sets the
later count to 0; one that finds it locked adds one to the later count, which holds at 255, and replaces the content when its class
is more severe, or equal with an earlier item, in which an item is earlier by its image number, then by its step, and no item is later than
any (R163, R164). -/
def Obligations.TheCaptureRecordKeepsTheWorst : Prop :=
  ∀ (r : FaultRecord) (s : State),
    let c := s.fau.capture
    let rank (k : FaultClass) : Nat := match k with | .w => 0 | .d => 1 | .s => 2 | .h => 3
    let earlier (a b : Option Item) : Prop := ∃ i, a = some i ∧ (b = none ∨ ∃ j, b = some j ∧
      (i.image < j.image ∨ (i.image = j.image ∧ i.step < j.step)))
    (r.cls = .w → takeFault r s = enqueue (.fault r false) s) ∧
    (r.cls ≠ .w → c.locked = false → takeFault r s = enqueue (.fault r true)
      { s with fau := { s.fau with capture := { content := some r, locked := true, later := 0 } } }) ∧
    (∀ o, r.cls ≠ .w → c.locked = true → c.content = some o →
      let takes := rank o.cls < rank r.cls ∨ (r.cls = o.cls ∧ earlier r.item o.item)
      (takes → takeFault r s = enqueue (.fault r true)
        { s with fau := { s.fau with capture := { content := some r, locked := true, later := min (c.later + 1) 255 } } }) ∧
      (¬ takes → takeFault r s = enqueue (.fault r false)
        { s with fau := { s.fau with capture := { c with later := min (c.later + 1) 255 } } }))

/-- A fault of class S or H, in any state. The machine is HALTED with the trip off, the brake applied and the horn on; a run, a HOME and a
single revolution are over; every channel is commanded and forced off with its lock kept; no window is open; a HELD plan is discarded; an
item in the head whose drive was not made is returned without a try and the head UNKNOWN, and one whose drive was made is SUSPECT and
the head EMPTY, every other record unchanged; an unlocked capture record holds the fault. Class H cuts every motion: every axis UNHOMED
where it stands, a pulse begun completed, generator C free (R64, R77, R160, R161). LIMIT_RISE and STOP_LINE_RISE raise such faults of class H (R140, R168).
That a rise already accepted does nothing, and that the action cancels a stop commanded before it, are the model's choice
(notes/assumptions/10.md and 53.md). -/
def Obligations.ClassActionsHaltTheMachine : Prop :=
  (∀ (hard : Bool) (k : FaultKind) (item : Option Item) (pos : Option Nat) (detail : Int) (s : State),
    let cls : FaultClass := if hard then .h else .s
    let t := raiseFault k cls item pos detail s
    t.msv.state = .halted ∧ t.msv.trip = false ∧ t.msv.brake = true ∧ t.msv.finishing = false ∧
    t.msv.commandedStop = false ∧ t.msv.home = none ∧ t.msv.single = none ∧ (inRun s = true → t.msv.run = none) ∧
    t.fau.horn = true ∧ t.stu.engaged = false ∧ t.stu.stallTimer = (if s.msv.trip then none else s.stu.stallTimer) ∧
    t.stu.angle = s.stu.angle ∧
    (∀ i : ChannelNo, t.stu.channels[i].command = false ∧ t.stu.channels[i].force = false ∧
      t.stu.channels[i].locked = s.stu.channels[i].locked ∧ t.stu.channels[i].trigger = .spent) ∧
    (inRun s = true → (∀ n : Fin 12, t.wmu.windows[n].isOpen = false) ∧ t.sqc.frame = none ∧ t.sqc.verdict = .closed ∧
      t.sqc.vsel = 63 ∧ t.tmu.mark = none) ∧
    t.mot.held = none ∧ t.mot.settled = false ∧
    (∀ i, s.wmu.head.content = .item i → s.wmu.head.driveDone = false → t.wmu.head.content = .unknown) ∧
    (∀ i, s.wmu.head.content = .item i → s.wmu.head.driveDone = true → t.wmu.head.content = .empty) ∧
    t.wmu.head.ejectMark = s.wmu.head.ejectMark ∧
    (∀ i, s.wmu.head.content = .item i → Table.wf ItemRecord.fresh s.pgs.items = true →
      let mode : Option RunMode := match (if inRun s then none else s.msv.run) with
        | some r => some r.mode
        | none => s.pgs.panel
      let queued := (mode = some .direct ∨ mode = some .tapeOut) ∧ s.sqc.redo.length < 16
      (s.wmu.head.driveDone = true → t.sqc.redo = s.sqc.redo ∧
        itemRec i t = { state := .suspect, tries := (itemRec i s).tries, reason := none }) ∧
      (s.wmu.head.driveDone = false → t.sqc.redo = (if queued then s.sqc.redo ++ [i] else s.sqc.redo) ∧
        itemRec i t =
          { state := if queued then .redo else .pending, tries := (itemRec i s).tries, reason := none })) ∧
    (∀ j, s.wmu.head.content ≠ .item j → Table.wf ItemRecord.fresh s.pgs.items = true → itemRec j t = itemRec j s) ∧
    (s.fau.capture.locked = false → t.fau.capture.locked = true ∧ t.fau.capture.content =
      some { kind := k, cls := cls, item := item, chainPos := pos, angle := s.stu.angle, synced := s.stu.synced
             cycle := s.stu.cycle, detail := detail }) ∧
    (hard = true → t.mot.running = none ∧ t.mot.settle = none ∧ t.mot.service = none ∧ t.mot.cAxis = none ∧
      t.mot.cGap = none ∧ ∀ a, (t.mot.axis a).state = .unhomed ∧ (t.mot.axis a).drive = .idle ∧
        (t.mot.axis a).pulse = (s.mot.axis a).pulse ∧
        (s.mot.service = none → (t.mot.axis a).commanded = (s.mot.axis a).commanded)) ∧
    (hard = false → t.mot.running = s.mot.running ∧ t.mot.settle = s.mot.settle ∧ t.mot.cAxis = s.mot.cAxis) ∧
    t.store = s.store ∧ t.pending = s.pending) ∧
  (∀ s : State,
    (s.mot.limit.accepted = true → s.lnk.trailing = [] → exec .limitRise s = .next s) ∧
    (s.fau.stopLine.accepted = true → s.lnk.trailing = [] → exec .stopLineRise s = .next s) ∧
    (s.mot.limit.accepted = false →
      let moving (a : Axis) : Bool := (s.mot.axis a).state == .moving || (s.mot.axis a).state == .homing
      let axes : Int := (if moving .x then 1 else 0) + (if moving .y then 2 else 0) + (if moving .span then 4 else 0) +
        (if moving .rot then 8 else 0)
      exec .limitRise s = .next (reportState (stateView s)
        (raiseFault .limitSwitch .h (s.mot.running.bind (·.item)) none axes
          { s with mot := { s.mot with limit := { raw := true, accepted := true, candidate := 0 } } }))) ∧
    (s.fau.stopLine.accepted = false →
      exec .stopLineRise s = .next (reportState (stateView s) (raiseFault .stopLine .h none none 0
        { s with fau := { s.fau with stopLine := { raw := true, accepted := true, candidate := 0 } } }))))

/-! ### What every step keeps -/

/-- The state after reset is sound. -/
def Obligations.ResetIsSound : Prop := Sound State.reset

/-- Every command and every microsecond of the clock keep a sound state sound: the bounds and orders of the rules that the
predicates of Safety.lean cite, and the canonical form of the four tables. -/
def Obligations.EveryStepKeepsSoundStates : Prop := ∀ s t : State, Sound s → step s = .next t → Sound t

/-- The downloaded settings change by the requests that write them and by a full reset, and by nothing else the machine does: no count of
the encoder, no edge, no fault, no tick and no other request (R33, R67, R68, R72, R102, R135). -/
def Obligations.OnlySettingsRequestsWriteTheStore : Prop :=
  (∀ (c : Instr) (s t : State), writesStore c = false → exec c s = .next t → t.store = s.store) ∧
    ∀ (s t : State), s.pending = [] → (step s = .next t) → s.lnk.heldBytes = [] → t.store = s.store
end

