-- ==== Sys2Proof/Laws/Link.lean ====
section
/-! SUPPORT. What the link does with a request: one lemma for a line that is free, one for a line that is busy; and what
queueing a report and closing an event can change. -/

namespace Sys2Proof.Machine

/-! ### Taking a request -/

/-- A free line has nothing due. -/
theorem settled_of_ready (s : State) (h : linkReady s) : framerHunt (linkDue s) = s := by
  obtain ⟨h1, h2, h3, h4, h5, h6⟩ := h
  have e : linkDue s = s := by simp [linkDue, baudSwitch, busyReply, h1, h2, h3]
  rw [e]
  unfold framerHunt
  cases s
  rename_i l _ _ _
  cases l
  simp_all

/-- The line with its due work done: no speed switch is due, and no request waits with none in service. -/
theorem linkDue_done (s : State) :
    (linkDue s).lnk.baudDue = none ∧ ((linkDue s).lnk.inService = none → (linkDue s).lnk.waiting = none) := by
  have hb : (baudSwitch s).lnk.baudDue = none := by
    unfold baudSwitch
    cases h : s.lnk.baudDue
    · exact h
    · rfl
  unfold linkDue
  generalize baudSwitch s = u at hb
  unfold busyReply
  split
  · exact ⟨hb, fun h => by simp at h⟩
  · rename_i h1
    refine ⟨hb, fun h => ?_⟩
    cases hw : u.lnk.waiting
    · rfl
    · exact absurd hw (fun hw => h1 _ h hw)

/-- The line that an event of the link settles has nothing due left. -/
theorem settled_twice (s : State) : framerHunt (linkDue (framerHunt (linkDue s))) = framerHunt (linkDue s) := by
  obtain ⟨h1, h2⟩ := linkDue_done s
  generalize linkDue s = u at h1 h2
  have e : linkDue (framerHunt u) = framerHunt u := by
    unfold linkDue
    have hb : baudSwitch (framerHunt u) = framerHunt u := by
      unfold baudSwitch
      have : (framerHunt u).lnk.baudDue = none := h1
      rw [this]
    rw [hb]
    unfold busyReply
    cases hi : u.lnk.inService
    · have hi' : (framerHunt u).lnk.inService = none := hi
      have hw' : (framerHunt u).lnk.waiting = none := h2 hi
      rw [hi', hw']
    · rename_i k
      have hi' : (framerHunt u).lnk.inService = some k := hi
      rw [hi']
  rw [e]
  rfl

/-- On a free line a request whose owner answers (t, status, body) ends in t with the reply formed. -/
theorem request_answers (k : Byte) (f : State → Answer) (s t : State) (st : Status) (b : ReplyBody) (h : linkReady s)
    (hf : f (taken k s) = (taken k t, st, b)) : request k f s = answered k st b t := by
  simp only [request, settled_of_ready s h, serve, h.1]
  have : f { s with lnk := { s.lnk with inService := some k } } = (taken k t, st, b) := hf
  rw [this]
  rfl

/-- Taking a request changes nothing that its owner's work reads. -/
@[simp] theorem taken_msv (k : Byte) (s : State) : (taken k s).msv = s.msv := rfl
@[simp] theorem taken_stu (k : Byte) (s : State) : (taken k s).stu = s.stu := rfl
@[simp] theorem taken_wmu (k : Byte) (s : State) : (taken k s).wmu = s.wmu := rfl
@[simp] theorem taken_pgs (k : Byte) (s : State) : (taken k s).pgs = s.pgs := rfl
@[simp] theorem taken_sqc (k : Byte) (s : State) : (taken k s).sqc = s.sqc := rfl
@[simp] theorem taken_tmu (k : Byte) (s : State) : (taken k s).tmu = s.tmu := rfl
@[simp] theorem taken_mot (k : Byte) (s : State) : (taken k s).mot = s.mot := rfl
@[simp] theorem taken_fau (k : Byte) (s : State) : (taken k s).fau = s.fau := rfl
@[simp] theorem taken_store (k : Byte) (s : State) : (taken k s).store = s.store := rfl
@[simp] theorem taken_clock (k : Byte) (s : State) : (taken k s).clock = s.clock := rfl
@[simp] theorem taken_pending (k : Byte) (s : State) : (taken k s).pending = s.pending := rfl
@[simp] theorem taken_queue (k : Byte) (s : State) : (taken k s).lnk.queue = s.lnk.queue := rfl
@[simp] theorem taken_mask (k : Byte) (s : State) : (taken k s).lnk.mask = s.lnk.mask := rfl
@[simp] theorem taken_trailing (k : Byte) (s : State) : (taken k s).lnk.trailing = s.lnk.trailing := rfl

/-! ### Queueing a report -/

/-- Queueing a report changes the report queue and the overflow flag alone. -/
theorem enqueue_shape (r : Report) (s : State) :
    enqueue r s = { s with lnk := { s.lnk with queue := (enqueue r s).lnk.queue, overflow := (enqueue r s).lnk.overflow } } := by
  unfold enqueue
  split
  · split <;> rfl
  · rfl

/-- An event that holds no report back and changes nothing that R1 reports closes with no report. -/
theorem reportState_same (v : StateView) (t : State) (ht : t.lnk.trailing = []) (h : viewChanged v (stateView t) = false) :
    reportState v t = t := by
  unfold reportState flushTrailing
  simp only [h, Bool.false_eq_true, if_false, ht, List.foldl_nil]
  cases t
  rename_i l _ _ _
  cases l
  simp_all

end Sys2Proof.Machine
end

