-- ==== Sys2Proof/Laws/State.lean ====
section
/-! SUPPORT. What each named update of the state leaves alone, field by field, and what it writes. -/

namespace Sys2Proof.Machine

@[simp] theorem setItemRec_msv (i : Item) (r : ItemRecord) (s : State) : (setItemRec i r s).msv = s.msv := rfl
@[simp] theorem setItemRec_stu (i : Item) (r : ItemRecord) (s : State) : (setItemRec i r s).stu = s.stu := rfl
@[simp] theorem setItemRec_wmu (i : Item) (r : ItemRecord) (s : State) : (setItemRec i r s).wmu = s.wmu := rfl
@[simp] theorem setItemRec_sqc (i : Item) (r : ItemRecord) (s : State) : (setItemRec i r s).sqc = s.sqc := rfl
@[simp] theorem setItemRec_tmu (i : Item) (r : ItemRecord) (s : State) : (setItemRec i r s).tmu = s.tmu := rfl
@[simp] theorem setItemRec_mot (i : Item) (r : ItemRecord) (s : State) : (setItemRec i r s).mot = s.mot := rfl
@[simp] theorem setItemRec_fau (i : Item) (r : ItemRecord) (s : State) : (setItemRec i r s).fau = s.fau := rfl
@[simp] theorem setItemRec_lnk (i : Item) (r : ItemRecord) (s : State) : (setItemRec i r s).lnk = s.lnk := rfl
@[simp] theorem setItemRec_store (i : Item) (r : ItemRecord) (s : State) : (setItemRec i r s).store = s.store := rfl
@[simp] theorem setItemRec_clock (i : Item) (r : ItemRecord) (s : State) : (setItemRec i r s).clock = s.clock := rfl
@[simp] theorem setItemRec_pending (i : Item) (r : ItemRecord) (s : State) : (setItemRec i r s).pending = s.pending := rfl

@[simp] theorem setDwell_stu (f : DwellSet → DwellSet) (s : State) : (setDwell f s).stu = s.stu := rfl
@[simp] theorem setDwell_wmu (f : DwellSet → DwellSet) (s : State) : (setDwell f s).wmu = s.wmu := rfl
@[simp] theorem setDwell_pgs (f : DwellSet → DwellSet) (s : State) : (setDwell f s).pgs = s.pgs := rfl
@[simp] theorem setDwell_sqc (f : DwellSet → DwellSet) (s : State) : (setDwell f s).sqc = s.sqc := rfl
@[simp] theorem setDwell_tmu (f : DwellSet → DwellSet) (s : State) : (setDwell f s).tmu = s.tmu := rfl
@[simp] theorem setDwell_mot (f : DwellSet → DwellSet) (s : State) : (setDwell f s).mot = s.mot := rfl
@[simp] theorem setDwell_fau (f : DwellSet → DwellSet) (s : State) : (setDwell f s).fau = s.fau := rfl
@[simp] theorem setDwell_lnk (f : DwellSet → DwellSet) (s : State) : (setDwell f s).lnk = s.lnk := rfl
@[simp] theorem setDwell_store (f : DwellSet → DwellSet) (s : State) : (setDwell f s).store = s.store := rfl
@[simp] theorem setDwell_clock (f : DwellSet → DwellSet) (s : State) : (setDwell f s).clock = s.clock := rfl
@[simp] theorem setDwell_pending (f : DwellSet → DwellSet) (s : State) : (setDwell f s).pending = s.pending := rfl

@[simp] theorem setChannelRec_msv (i : ChannelNo) (c : Channel) (s : State) : (setChannelRec i c s).msv = s.msv := rfl
@[simp] theorem setChannelRec_wmu (i : ChannelNo) (c : Channel) (s : State) : (setChannelRec i c s).wmu = s.wmu := rfl
@[simp] theorem setChannelRec_pgs (i : ChannelNo) (c : Channel) (s : State) : (setChannelRec i c s).pgs = s.pgs := rfl
@[simp] theorem setChannelRec_sqc (i : ChannelNo) (c : Channel) (s : State) : (setChannelRec i c s).sqc = s.sqc := rfl
@[simp] theorem setChannelRec_tmu (i : ChannelNo) (c : Channel) (s : State) : (setChannelRec i c s).tmu = s.tmu := rfl
@[simp] theorem setChannelRec_mot (i : ChannelNo) (c : Channel) (s : State) : (setChannelRec i c s).mot = s.mot := rfl
@[simp] theorem setChannelRec_fau (i : ChannelNo) (c : Channel) (s : State) : (setChannelRec i c s).fau = s.fau := rfl
@[simp] theorem setChannelRec_lnk (i : ChannelNo) (c : Channel) (s : State) : (setChannelRec i c s).lnk = s.lnk := rfl
@[simp] theorem setChannelRec_store (i : ChannelNo) (c : Channel) (s : State) : (setChannelRec i c s).store = s.store := rfl
@[simp] theorem setChannelRec_clock (i : ChannelNo) (c : Channel) (s : State) : (setChannelRec i c s).clock = s.clock := rfl
@[simp] theorem setChannelRec_pending (i : ChannelNo) (c : Channel) (s : State) : (setChannelRec i c s).pending = s.pending := rfl

@[simp] theorem setWindowRec_msv (n : Fin 12) (w : Window) (s : State) : (setWindowRec n w s).msv = s.msv := rfl
@[simp] theorem setWindowRec_stu (n : Fin 12) (w : Window) (s : State) : (setWindowRec n w s).stu = s.stu := rfl
@[simp] theorem setWindowRec_pgs (n : Fin 12) (w : Window) (s : State) : (setWindowRec n w s).pgs = s.pgs := rfl
@[simp] theorem setWindowRec_sqc (n : Fin 12) (w : Window) (s : State) : (setWindowRec n w s).sqc = s.sqc := rfl
@[simp] theorem setWindowRec_tmu (n : Fin 12) (w : Window) (s : State) : (setWindowRec n w s).tmu = s.tmu := rfl
@[simp] theorem setWindowRec_mot (n : Fin 12) (w : Window) (s : State) : (setWindowRec n w s).mot = s.mot := rfl
@[simp] theorem setWindowRec_fau (n : Fin 12) (w : Window) (s : State) : (setWindowRec n w s).fau = s.fau := rfl
@[simp] theorem setWindowRec_lnk (n : Fin 12) (w : Window) (s : State) : (setWindowRec n w s).lnk = s.lnk := rfl
@[simp] theorem setWindowRec_store (n : Fin 12) (w : Window) (s : State) : (setWindowRec n w s).store = s.store := rfl
@[simp] theorem setWindowRec_clock (n : Fin 12) (w : Window) (s : State) : (setWindowRec n w s).clock = s.clock := rfl
@[simp] theorem setWindowRec_pending (n : Fin 12) (w : Window) (s : State) : (setWindowRec n w s).pending = s.pending := rfl

@[simp] theorem mapWindows_msv (f : Window → Window) (s : State) : (mapWindows f s).msv = s.msv := rfl
@[simp] theorem mapWindows_stu (f : Window → Window) (s : State) : (mapWindows f s).stu = s.stu := rfl
@[simp] theorem mapWindows_pgs (f : Window → Window) (s : State) : (mapWindows f s).pgs = s.pgs := rfl
@[simp] theorem mapWindows_sqc (f : Window → Window) (s : State) : (mapWindows f s).sqc = s.sqc := rfl
@[simp] theorem mapWindows_tmu (f : Window → Window) (s : State) : (mapWindows f s).tmu = s.tmu := rfl
@[simp] theorem mapWindows_mot (f : Window → Window) (s : State) : (mapWindows f s).mot = s.mot := rfl
@[simp] theorem mapWindows_fau (f : Window → Window) (s : State) : (mapWindows f s).fau = s.fau := rfl
@[simp] theorem mapWindows_lnk (f : Window → Window) (s : State) : (mapWindows f s).lnk = s.lnk := rfl
@[simp] theorem mapWindows_store (f : Window → Window) (s : State) : (mapWindows f s).store = s.store := rfl
@[simp] theorem mapWindows_clock (f : Window → Window) (s : State) : (mapWindows f s).clock = s.clock := rfl
@[simp] theorem mapWindows_pending (f : Window → Window) (s : State) : (mapWindows f s).pending = s.pending := rfl

@[simp] theorem setAxisRec_msv (a : Axis) (r : AxisRec) (s : State) : (setAxisRec a r s).msv = s.msv := rfl
@[simp] theorem setAxisRec_stu (a : Axis) (r : AxisRec) (s : State) : (setAxisRec a r s).stu = s.stu := rfl
@[simp] theorem setAxisRec_wmu (a : Axis) (r : AxisRec) (s : State) : (setAxisRec a r s).wmu = s.wmu := rfl
@[simp] theorem setAxisRec_pgs (a : Axis) (r : AxisRec) (s : State) : (setAxisRec a r s).pgs = s.pgs := rfl
@[simp] theorem setAxisRec_sqc (a : Axis) (r : AxisRec) (s : State) : (setAxisRec a r s).sqc = s.sqc := rfl
@[simp] theorem setAxisRec_tmu (a : Axis) (r : AxisRec) (s : State) : (setAxisRec a r s).tmu = s.tmu := rfl
@[simp] theorem setAxisRec_fau (a : Axis) (r : AxisRec) (s : State) : (setAxisRec a r s).fau = s.fau := rfl
@[simp] theorem setAxisRec_lnk (a : Axis) (r : AxisRec) (s : State) : (setAxisRec a r s).lnk = s.lnk := rfl
@[simp] theorem setAxisRec_store (a : Axis) (r : AxisRec) (s : State) : (setAxisRec a r s).store = s.store := rfl
@[simp] theorem setAxisRec_clock (a : Axis) (r : AxisRec) (s : State) : (setAxisRec a r s).clock = s.clock := rfl
@[simp] theorem setAxisRec_pending (a : Axis) (r : AxisRec) (s : State) : (setAxisRec a r s).pending = s.pending := rfl

@[simp] theorem mapAxes_msv (f : AxisRec → AxisRec) (s : State) : (mapAxes f s).msv = s.msv := rfl
@[simp] theorem mapAxes_stu (f : AxisRec → AxisRec) (s : State) : (mapAxes f s).stu = s.stu := rfl
@[simp] theorem mapAxes_wmu (f : AxisRec → AxisRec) (s : State) : (mapAxes f s).wmu = s.wmu := rfl
@[simp] theorem mapAxes_pgs (f : AxisRec → AxisRec) (s : State) : (mapAxes f s).pgs = s.pgs := rfl
@[simp] theorem mapAxes_sqc (f : AxisRec → AxisRec) (s : State) : (mapAxes f s).sqc = s.sqc := rfl
@[simp] theorem mapAxes_tmu (f : AxisRec → AxisRec) (s : State) : (mapAxes f s).tmu = s.tmu := rfl
@[simp] theorem mapAxes_fau (f : AxisRec → AxisRec) (s : State) : (mapAxes f s).fau = s.fau := rfl
@[simp] theorem mapAxes_lnk (f : AxisRec → AxisRec) (s : State) : (mapAxes f s).lnk = s.lnk := rfl
@[simp] theorem mapAxes_store (f : AxisRec → AxisRec) (s : State) : (mapAxes f s).store = s.store := rfl
@[simp] theorem mapAxes_clock (f : AxisRec → AxisRec) (s : State) : (mapAxes f s).clock = s.clock := rfl
@[simp] theorem mapAxes_pending (f : AxisRec → AxisRec) (s : State) : (mapAxes f s).pending = s.pending := rfl

@[simp] theorem setSlot_msv (p : Nat) (c : Slot) (s : State) : (setSlot p c s).msv = s.msv := rfl
@[simp] theorem setSlot_stu (p : Nat) (c : Slot) (s : State) : (setSlot p c s).stu = s.stu := rfl
@[simp] theorem setSlot_wmu (p : Nat) (c : Slot) (s : State) : (setSlot p c s).wmu = s.wmu := rfl
@[simp] theorem setSlot_pgs (p : Nat) (c : Slot) (s : State) : (setSlot p c s).pgs = s.pgs := rfl
@[simp] theorem setSlot_tmu (p : Nat) (c : Slot) (s : State) : (setSlot p c s).tmu = s.tmu := rfl
@[simp] theorem setSlot_mot (p : Nat) (c : Slot) (s : State) : (setSlot p c s).mot = s.mot := rfl
@[simp] theorem setSlot_fau (p : Nat) (c : Slot) (s : State) : (setSlot p c s).fau = s.fau := rfl
@[simp] theorem setSlot_lnk (p : Nat) (c : Slot) (s : State) : (setSlot p c s).lnk = s.lnk := rfl
@[simp] theorem setSlot_store (p : Nat) (c : Slot) (s : State) : (setSlot p c s).store = s.store := rfl
@[simp] theorem setSlot_clock (p : Nat) (c : Slot) (s : State) : (setSlot p c s).clock = s.clock := rfl
@[simp] theorem setSlot_pending (p : Nat) (c : Slot) (s : State) : (setSlot p c s).pending = s.pending := rfl

@[simp] theorem setDispenserRec_msv (n : Fin 48) (d : Dispenser) (s : State) : (setDispenserRec n d s).msv = s.msv := rfl
@[simp] theorem setDispenserRec_stu (n : Fin 48) (d : Dispenser) (s : State) : (setDispenserRec n d s).stu = s.stu := rfl
@[simp] theorem setDispenserRec_wmu (n : Fin 48) (d : Dispenser) (s : State) : (setDispenserRec n d s).wmu = s.wmu := rfl
@[simp] theorem setDispenserRec_pgs (n : Fin 48) (d : Dispenser) (s : State) : (setDispenserRec n d s).pgs = s.pgs := rfl
@[simp] theorem setDispenserRec_tmu (n : Fin 48) (d : Dispenser) (s : State) : (setDispenserRec n d s).tmu = s.tmu := rfl
@[simp] theorem setDispenserRec_mot (n : Fin 48) (d : Dispenser) (s : State) : (setDispenserRec n d s).mot = s.mot := rfl
@[simp] theorem setDispenserRec_fau (n : Fin 48) (d : Dispenser) (s : State) : (setDispenserRec n d s).fau = s.fau := rfl
@[simp] theorem setDispenserRec_lnk (n : Fin 48) (d : Dispenser) (s : State) : (setDispenserRec n d s).lnk = s.lnk := rfl
@[simp] theorem setDispenserRec_store (n : Fin 48) (d : Dispenser) (s : State) : (setDispenserRec n d s).store = s.store := rfl
@[simp] theorem setDispenserRec_clock (n : Fin 48) (d : Dispenser) (s : State) : (setDispenserRec n d s).clock = s.clock := rfl
@[simp] theorem setDispenserRec_pending (n : Fin 48) (d : Dispenser) (s : State) : (setDispenserRec n d s).pending = s.pending := rfl

@[simp] theorem setInput_msv (i : InputNo) (f : Filter) (s : State) : (setInput i f s).msv = s.msv := rfl
@[simp] theorem setInput_stu (i : InputNo) (f : Filter) (s : State) : (setInput i f s).stu = s.stu := rfl
@[simp] theorem setInput_pgs (i : InputNo) (f : Filter) (s : State) : (setInput i f s).pgs = s.pgs := rfl
@[simp] theorem setInput_sqc (i : InputNo) (f : Filter) (s : State) : (setInput i f s).sqc = s.sqc := rfl
@[simp] theorem setInput_tmu (i : InputNo) (f : Filter) (s : State) : (setInput i f s).tmu = s.tmu := rfl
@[simp] theorem setInput_mot (i : InputNo) (f : Filter) (s : State) : (setInput i f s).mot = s.mot := rfl
@[simp] theorem setInput_fau (i : InputNo) (f : Filter) (s : State) : (setInput i f s).fau = s.fau := rfl
@[simp] theorem setInput_lnk (i : InputNo) (f : Filter) (s : State) : (setInput i f s).lnk = s.lnk := rfl
@[simp] theorem setInput_store (i : InputNo) (f : Filter) (s : State) : (setInput i f s).store = s.store := rfl
@[simp] theorem setInput_clock (i : InputNo) (f : Filter) (s : State) : (setInput i f s).clock = s.clock := rfl
@[simp] theorem setInput_pending (i : InputNo) (f : Filter) (s : State) : (setInput i f s).pending = s.pending := rfl

@[simp] theorem setHomeInput_msv (a : Axis) (f : Filter) (s : State) : (setHomeInput a f s).msv = s.msv := rfl
@[simp] theorem setHomeInput_stu (a : Axis) (f : Filter) (s : State) : (setHomeInput a f s).stu = s.stu := rfl
@[simp] theorem setHomeInput_wmu (a : Axis) (f : Filter) (s : State) : (setHomeInput a f s).wmu = s.wmu := rfl
@[simp] theorem setHomeInput_pgs (a : Axis) (f : Filter) (s : State) : (setHomeInput a f s).pgs = s.pgs := rfl
@[simp] theorem setHomeInput_sqc (a : Axis) (f : Filter) (s : State) : (setHomeInput a f s).sqc = s.sqc := rfl
@[simp] theorem setHomeInput_tmu (a : Axis) (f : Filter) (s : State) : (setHomeInput a f s).tmu = s.tmu := rfl
@[simp] theorem setHomeInput_fau (a : Axis) (f : Filter) (s : State) : (setHomeInput a f s).fau = s.fau := rfl
@[simp] theorem setHomeInput_lnk (a : Axis) (f : Filter) (s : State) : (setHomeInput a f s).lnk = s.lnk := rfl
@[simp] theorem setHomeInput_store (a : Axis) (f : Filter) (s : State) : (setHomeInput a f s).store = s.store := rfl
@[simp] theorem setHomeInput_clock (a : Axis) (f : Filter) (s : State) : (setHomeInput a f s).clock = s.clock := rfl
@[simp] theorem setHomeInput_pending (a : Axis) (f : Filter) (s : State) : (setHomeInput a f s).pending = s.pending := rfl

@[simp] theorem enqueueAfter_msv (r : Report) (s : State) : (enqueueAfter r s).msv = s.msv := rfl
@[simp] theorem enqueueAfter_stu (r : Report) (s : State) : (enqueueAfter r s).stu = s.stu := rfl
@[simp] theorem enqueueAfter_wmu (r : Report) (s : State) : (enqueueAfter r s).wmu = s.wmu := rfl
@[simp] theorem enqueueAfter_pgs (r : Report) (s : State) : (enqueueAfter r s).pgs = s.pgs := rfl
@[simp] theorem enqueueAfter_sqc (r : Report) (s : State) : (enqueueAfter r s).sqc = s.sqc := rfl
@[simp] theorem enqueueAfter_tmu (r : Report) (s : State) : (enqueueAfter r s).tmu = s.tmu := rfl
@[simp] theorem enqueueAfter_mot (r : Report) (s : State) : (enqueueAfter r s).mot = s.mot := rfl
@[simp] theorem enqueueAfter_fau (r : Report) (s : State) : (enqueueAfter r s).fau = s.fau := rfl
@[simp] theorem enqueueAfter_store (r : Report) (s : State) : (enqueueAfter r s).store = s.store := rfl
@[simp] theorem enqueueAfter_clock (r : Report) (s : State) : (enqueueAfter r s).clock = s.clock := rfl
@[simp] theorem enqueueAfter_pending (r : Report) (s : State) : (enqueueAfter r s).pending = s.pending := rfl

@[simp] theorem classW_msv (s : State) : (classW s).msv = s.msv := rfl
@[simp] theorem classW_stu (s : State) : (classW s).stu = s.stu := rfl
@[simp] theorem classW_wmu (s : State) : (classW s).wmu = s.wmu := rfl
@[simp] theorem classW_pgs (s : State) : (classW s).pgs = s.pgs := rfl
@[simp] theorem classW_sqc (s : State) : (classW s).sqc = s.sqc := rfl
@[simp] theorem classW_tmu (s : State) : (classW s).tmu = s.tmu := rfl
@[simp] theorem classW_mot (s : State) : (classW s).mot = s.mot := rfl
@[simp] theorem classW_lnk (s : State) : (classW s).lnk = s.lnk := rfl
@[simp] theorem classW_store (s : State) : (classW s).store = s.store := rfl
@[simp] theorem classW_clock (s : State) : (classW s).clock = s.clock := rfl
@[simp] theorem classW_pending (s : State) : (classW s).pending = s.pending := rfl

@[simp] theorem writeStep_msv (p : Nat) (r : StepRecord) (s : State) : (writeStep p r s).msv = s.msv := rfl
@[simp] theorem writeStep_stu (p : Nat) (r : StepRecord) (s : State) : (writeStep p r s).stu = s.stu := rfl
@[simp] theorem writeStep_wmu (p : Nat) (r : StepRecord) (s : State) : (writeStep p r s).wmu = s.wmu := rfl
@[simp] theorem writeStep_pgs (p : Nat) (r : StepRecord) (s : State) : (writeStep p r s).pgs = s.pgs := rfl
@[simp] theorem writeStep_sqc (p : Nat) (r : StepRecord) (s : State) : (writeStep p r s).sqc = s.sqc := rfl
@[simp] theorem writeStep_tmu (p : Nat) (r : StepRecord) (s : State) : (writeStep p r s).tmu = s.tmu := rfl
@[simp] theorem writeStep_mot (p : Nat) (r : StepRecord) (s : State) : (writeStep p r s).mot = s.mot := rfl
@[simp] theorem writeStep_fau (p : Nat) (r : StepRecord) (s : State) : (writeStep p r s).fau = s.fau := rfl
@[simp] theorem writeStep_lnk (p : Nat) (r : StepRecord) (s : State) : (writeStep p r s).lnk = s.lnk := rfl
@[simp] theorem writeStep_clock (p : Nat) (r : StepRecord) (s : State) : (writeStep p r s).clock = s.clock := rfl
@[simp] theorem writeStep_pending (p : Nat) (r : StepRecord) (s : State) : (writeStep p r s).pending = s.pending := rfl

@[simp] theorem writeEntry_msv (p : Nat) (e : TapeEntry) (s : State) : (writeEntry p e s).msv = s.msv := rfl
@[simp] theorem writeEntry_stu (p : Nat) (e : TapeEntry) (s : State) : (writeEntry p e s).stu = s.stu := rfl
@[simp] theorem writeEntry_wmu (p : Nat) (e : TapeEntry) (s : State) : (writeEntry p e s).wmu = s.wmu := rfl
@[simp] theorem writeEntry_pgs (p : Nat) (e : TapeEntry) (s : State) : (writeEntry p e s).pgs = s.pgs := rfl
@[simp] theorem writeEntry_sqc (p : Nat) (e : TapeEntry) (s : State) : (writeEntry p e s).sqc = s.sqc := rfl
@[simp] theorem writeEntry_mot (p : Nat) (e : TapeEntry) (s : State) : (writeEntry p e s).mot = s.mot := rfl
@[simp] theorem writeEntry_fau (p : Nat) (e : TapeEntry) (s : State) : (writeEntry p e s).fau = s.fau := rfl
@[simp] theorem writeEntry_lnk (p : Nat) (e : TapeEntry) (s : State) : (writeEntry p e s).lnk = s.lnk := rfl
@[simp] theorem writeEntry_store (p : Nat) (e : TapeEntry) (s : State) : (writeEntry p e s).store = s.store := rfl
@[simp] theorem writeEntry_clock (p : Nat) (e : TapeEntry) (s : State) : (writeEntry p e s).clock = s.clock := rfl
@[simp] theorem writeEntry_pending (p : Nat) (e : TapeEntry) (s : State) : (writeEntry p e s).pending = s.pending := rfl

@[simp] theorem leaveRedo_msv (i : Item) (s : State) : (leaveRedo i s).msv = s.msv := rfl
@[simp] theorem leaveRedo_stu (i : Item) (s : State) : (leaveRedo i s).stu = s.stu := rfl
@[simp] theorem leaveRedo_wmu (i : Item) (s : State) : (leaveRedo i s).wmu = s.wmu := rfl
@[simp] theorem leaveRedo_pgs (i : Item) (s : State) : (leaveRedo i s).pgs = s.pgs := rfl
@[simp] theorem leaveRedo_tmu (i : Item) (s : State) : (leaveRedo i s).tmu = s.tmu := rfl
@[simp] theorem leaveRedo_mot (i : Item) (s : State) : (leaveRedo i s).mot = s.mot := rfl
@[simp] theorem leaveRedo_fau (i : Item) (s : State) : (leaveRedo i s).fau = s.fau := rfl
@[simp] theorem leaveRedo_lnk (i : Item) (s : State) : (leaveRedo i s).lnk = s.lnk := rfl
@[simp] theorem leaveRedo_store (i : Item) (s : State) : (leaveRedo i s).store = s.store := rfl
@[simp] theorem leaveRedo_clock (i : Item) (s : State) : (leaveRedo i s).clock = s.clock := rfl
@[simp] theorem leaveRedo_pending (i : Item) (s : State) : (leaveRedo i s).pending = s.pending := rfl

@[simp] theorem raiseTrip_wmu (s : State) : (raiseTrip s).wmu = s.wmu := rfl
@[simp] theorem raiseTrip_pgs (s : State) : (raiseTrip s).pgs = s.pgs := rfl
@[simp] theorem raiseTrip_sqc (s : State) : (raiseTrip s).sqc = s.sqc := rfl
@[simp] theorem raiseTrip_tmu (s : State) : (raiseTrip s).tmu = s.tmu := rfl
@[simp] theorem raiseTrip_mot (s : State) : (raiseTrip s).mot = s.mot := rfl
@[simp] theorem raiseTrip_fau (s : State) : (raiseTrip s).fau = s.fau := rfl
@[simp] theorem raiseTrip_lnk (s : State) : (raiseTrip s).lnk = s.lnk := rfl
@[simp] theorem raiseTrip_store (s : State) : (raiseTrip s).store = s.store := rfl
@[simp] theorem raiseTrip_clock (s : State) : (raiseTrip s).clock = s.clock := rfl
@[simp] theorem raiseTrip_pending (s : State) : (raiseTrip s).pending = s.pending := rfl

@[simp] theorem framerHunt_msv (s : State) : (framerHunt s).msv = s.msv := rfl
@[simp] theorem framerHunt_stu (s : State) : (framerHunt s).stu = s.stu := rfl
@[simp] theorem framerHunt_wmu (s : State) : (framerHunt s).wmu = s.wmu := rfl
@[simp] theorem framerHunt_pgs (s : State) : (framerHunt s).pgs = s.pgs := rfl
@[simp] theorem framerHunt_sqc (s : State) : (framerHunt s).sqc = s.sqc := rfl
@[simp] theorem framerHunt_tmu (s : State) : (framerHunt s).tmu = s.tmu := rfl
@[simp] theorem framerHunt_mot (s : State) : (framerHunt s).mot = s.mot := rfl
@[simp] theorem framerHunt_fau (s : State) : (framerHunt s).fau = s.fau := rfl
@[simp] theorem framerHunt_store (s : State) : (framerHunt s).store = s.store := rfl
@[simp] theorem framerHunt_clock (s : State) : (framerHunt s).clock = s.clock := rfl
@[simp] theorem framerHunt_pending (s : State) : (framerHunt s).pending = s.pending := rfl

@[simp] theorem withPending_msv (l : List Instr) (s : State) : (s.withPending l).msv = s.msv := rfl
@[simp] theorem withPending_stu (l : List Instr) (s : State) : (s.withPending l).stu = s.stu := rfl
@[simp] theorem withPending_wmu (l : List Instr) (s : State) : (s.withPending l).wmu = s.wmu := rfl
@[simp] theorem withPending_pgs (l : List Instr) (s : State) : (s.withPending l).pgs = s.pgs := rfl
@[simp] theorem withPending_sqc (l : List Instr) (s : State) : (s.withPending l).sqc = s.sqc := rfl
@[simp] theorem withPending_tmu (l : List Instr) (s : State) : (s.withPending l).tmu = s.tmu := rfl
@[simp] theorem withPending_mot (l : List Instr) (s : State) : (s.withPending l).mot = s.mot := rfl
@[simp] theorem withPending_fau (l : List Instr) (s : State) : (s.withPending l).fau = s.fau := rfl
@[simp] theorem withPending_lnk (l : List Instr) (s : State) : (s.withPending l).lnk = s.lnk := rfl
@[simp] theorem withPending_store (l : List Instr) (s : State) : (s.withPending l).store = s.store := rfl
@[simp] theorem withPending_clock (l : List Instr) (s : State) : (s.withPending l).clock = s.clock := rfl
@[simp] theorem withPending_pending (l : List Instr) (s : State) : (s.withPending l).pending = l := rfl

/-! ### What the named updates write -/

@[simp] theorem setDwell_dwell (f : DwellSet → DwellSet) (s : State) : (setDwell f s).msv.dwell = f s.msv.dwell := rfl
@[simp] theorem setDwell_state (f : DwellSet → DwellSet) (s : State) : (setDwell f s).msv.state = s.msv.state := rfl
@[simp] theorem setDwell_trip (f : DwellSet → DwellSet) (s : State) : (setDwell f s).msv.trip = s.msv.trip := rfl
@[simp] theorem setDwell_brake (f : DwellSet → DwellSet) (s : State) : (setDwell f s).msv.brake = s.msv.brake := rfl
@[simp] theorem setDwell_run (f : DwellSet → DwellSet) (s : State) : (setDwell f s).msv.run = s.msv.run := rfl
@[simp] theorem setDwell_atRest (f : DwellSet → DwellSet) (s : State) : (setDwell f s).msv.atRest = s.msv.atRest := rfl
@[simp] theorem setItemRec_items (i : Item) (r : ItemRecord) (s : State) :
    (setItemRec i r s).pgs.items = Table.write .fresh s.pgs.items i.key r := rfl
@[simp] theorem setItemRec_panel (i : Item) (r : ItemRecord) (s : State) : (setItemRec i r s).pgs.panel = s.pgs.panel := rfl
@[simp] theorem setItemRec_active (i : Item) (r : ItemRecord) (s : State) : (setItemRec i r s).pgs.active = s.pgs.active := rfl
@[simp] theorem setChannelRec_same (i : ChannelNo) (c : Channel) (s : State) :
    (setChannelRec i c s).stu.channels[i] = c := by simp [setChannelRec]
theorem setChannelRec_other (i j : ChannelNo) (c : Channel) (s : State) (h : i ≠ j) :
    (setChannelRec i c s).stu.channels[j] = s.stu.channels[j] := by
  have h2 : i.val ≠ j.val := fun e => h (Fin.ext e)
  simp [setChannelRec, Vector.getElem_set_ne _ _ h2]
@[simp] theorem setWindowRec_same (n : Fin 12) (w : Window) (s : State) :
    (setWindowRec n w s).wmu.windows[n] = w := by simp [setWindowRec]
theorem setWindowRec_other (n m : Fin 12) (w : Window) (s : State) (h : n ≠ m) :
    (setWindowRec n w s).wmu.windows[m] = s.wmu.windows[m] := by
  have h2 : n.val ≠ m.val := fun e => h (Fin.ext e)
  simp [setWindowRec, Vector.getElem_set_ne _ _ h2]
@[simp] theorem setDispenserRec_same (n : Fin 48) (d : Dispenser) (s : State) :
    (setDispenserRec n d s).sqc.dispensers[n] = d := by simp [setDispenserRec]
theorem setDispenserRec_other (n m : Fin 48) (d : Dispenser) (s : State) (h : n ≠ m) :
    (setDispenserRec n d s).sqc.dispensers[m] = s.sqc.dispensers[m] := by
  have h2 : n.val ≠ m.val := fun e => h (Fin.ext e)
  simp [setDispenserRec, Vector.getElem_set_ne _ _ h2]
@[simp] theorem setAxisRec_same (a : Axis) (r : AxisRec) (s : State) : (setAxisRec a r s).mot.axis a = r := by
  cases a <;> rfl
theorem setAxisRec_other (a b : Axis) (r : AxisRec) (s : State) (h : a ≠ b) :
    (setAxisRec a r s).mot.axis b = s.mot.axis b := by
  cases a <;> cases b <;> first | rfl | exact absurd rfl h
@[simp] theorem setSlot_length (p : Nat) (c : Slot) (s : State) : (setSlot p c s).sqc.chain.length = s.sqc.chain.length := by
  simp [setSlot]
@[simp] theorem raiseTrip_trip (s : State) : (raiseTrip s).msv.trip = true := rfl
@[simp] theorem raiseTrip_brake (s : State) : (raiseTrip s).msv.brake = false := rfl
@[simp] theorem raiseTrip_state (s : State) : (raiseTrip s).msv.state = s.msv.state := rfl
@[simp] theorem raiseTrip_run (s : State) : (raiseTrip s).msv.run = s.msv.run := rfl
@[simp] theorem framerHunt_framer (s : State) : (framerHunt s).lnk.framer = .hunt := rfl
@[simp] theorem framerHunt_heldBytes (s : State) : (framerHunt s).lnk.heldBytes = [] := rfl

end Sys2Proof.Machine
end

