-- ==== Sys2Proof/Laws/Ops.lean ====
section
/-! SUPPORT. What each shared operation leaves alone: one lemma for each block of the state that it does not touch. A block that has
no lemma here is one that the operation may change. -/

namespace Sys2Proof.Machine

/-- What holds before a fold and is kept by each of its steps holds after it. -/
theorem foldl_ind {σ α : Type} {f : σ → α → σ} {l : List α} {s : σ} (p : σ → Prop) (h0 : p s)
    (h : ∀ t x, p t → p (f t x)) : p (l.foldl f s) := by
  induction l generalizing s with
  | nil => exact h0
  | cons a l ih => exact ih (h s a h0)

/-! ### Reports -/

@[simp] theorem enqueue_keeps (r : Report) (s : State) :
    (enqueue r s).msv = s.msv ∧ (enqueue r s).stu = s.stu ∧ (enqueue r s).wmu = s.wmu ∧ (enqueue r s).pgs = s.pgs ∧
    (enqueue r s).sqc = s.sqc ∧ (enqueue r s).tmu = s.tmu ∧ (enqueue r s).mot = s.mot ∧ (enqueue r s).fau = s.fau ∧
    (enqueue r s).store = s.store ∧ (enqueue r s).clock = s.clock ∧ (enqueue r s).pending = s.pending := by
  rw [enqueue_shape]; simp

@[simp] theorem flushTrailing_keeps (s : State) :
    (flushTrailing s).msv = s.msv ∧ (flushTrailing s).stu = s.stu ∧ (flushTrailing s).wmu = s.wmu ∧
    (flushTrailing s).pgs = s.pgs ∧ (flushTrailing s).sqc = s.sqc ∧ (flushTrailing s).tmu = s.tmu ∧
    (flushTrailing s).mot = s.mot ∧ (flushTrailing s).fau = s.fau ∧ (flushTrailing s).store = s.store ∧
    (flushTrailing s).clock = s.clock ∧ (flushTrailing s).pending = s.pending := by
  unfold flushTrailing
  refine foldl_ind (fun t : State => t.msv = s.msv ∧ t.stu = s.stu ∧ t.wmu = s.wmu ∧ t.pgs = s.pgs ∧ t.sqc = s.sqc ∧ t.tmu = s.tmu ∧ t.mot = s.mot ∧
      t.fau = s.fau ∧ t.store = s.store ∧ t.clock = s.clock ∧ t.pending = s.pending) ?_ ?_
  · simp
  · intro t x h; simpa using h

@[simp] theorem reportState_keeps (v : StateView) (s : State) :
    (reportState v s).msv = s.msv ∧ (reportState v s).stu = s.stu ∧ (reportState v s).wmu = s.wmu ∧
    (reportState v s).pgs = s.pgs ∧ (reportState v s).sqc = s.sqc ∧ (reportState v s).tmu = s.tmu ∧
    (reportState v s).mot = s.mot ∧ (reportState v s).fau = s.fau ∧ (reportState v s).store = s.store ∧
    (reportState v s).clock = s.clock ∧ (reportState v s).pending = s.pending := by
  unfold reportState; split <;> simp

@[simp] theorem tapeReport_keeps (c : TapeCause) (p : Option Nat) (s : State) :
    (tapeReport c p s).msv = s.msv ∧ (tapeReport c p s).stu = s.stu ∧ (tapeReport c p s).wmu = s.wmu ∧
    (tapeReport c p s).pgs = s.pgs ∧ (tapeReport c p s).sqc = s.sqc ∧ (tapeReport c p s).tmu = s.tmu ∧
    (tapeReport c p s).mot = s.mot ∧ (tapeReport c p s).fau = s.fau ∧ (tapeReport c p s).store = s.store ∧
    (tapeReport c p s).clock = s.clock ∧ (tapeReport c p s).pending = s.pending := by
  unfold tapeReport; simp

@[simp] theorem reportReel_keeps (b : ReelState) (s : State) :
    (reportReel b s).msv = s.msv ∧ (reportReel b s).stu = s.stu ∧ (reportReel b s).wmu = s.wmu ∧
    (reportReel b s).pgs = s.pgs ∧ (reportReel b s).sqc = s.sqc ∧ (reportReel b s).tmu = s.tmu ∧
    (reportReel b s).mot = s.mot ∧ (reportReel b s).fau = s.fau ∧ (reportReel b s).store = s.store ∧
    (reportReel b s).clock = s.clock ∧ (reportReel b s).pending = s.pending := by
  unfold reportReel; split <;> simp

@[simp] theorem panelReport_keeps (m : RunMode) (e : PanelEnding) (s : State) :
    (panelReport m e s).msv = s.msv ∧ (panelReport m e s).stu = s.stu ∧ (panelReport m e s).wmu = s.wmu ∧
    (panelReport m e s).pgs = s.pgs ∧ (panelReport m e s).sqc = s.sqc ∧ (panelReport m e s).tmu = s.tmu ∧
    (panelReport m e s).mot = s.mot ∧ (panelReport m e s).fau = s.fau ∧ (panelReport m e s).store = s.store ∧
    (panelReport m e s).clock = s.clock ∧ (panelReport m e s).pending = s.pending := by
  unfold panelReport; simp

/-! ### Trip and dwell reason set -/

@[simp] theorem dropTrip_keeps (c : Bool) (s : State) :
    (dropTrip c s).wmu = s.wmu ∧ (dropTrip c s).pgs = s.pgs ∧ (dropTrip c s).sqc = s.sqc ∧
    (dropTrip c s).tmu = s.tmu ∧ (dropTrip c s).mot = s.mot ∧ (dropTrip c s).fau = s.fau ∧
    (dropTrip c s).lnk = s.lnk ∧ (dropTrip c s).store = s.store ∧ (dropTrip c s).clock = s.clock ∧
    (dropTrip c s).pending = s.pending := by
  unfold dropTrip; split <;> simp

@[simp] theorem raiseIfReady_keeps (s : State) :
    (raiseIfReady s).wmu = s.wmu ∧ (raiseIfReady s).pgs = s.pgs ∧ (raiseIfReady s).sqc = s.sqc ∧
    (raiseIfReady s).tmu = s.tmu ∧ (raiseIfReady s).mot = s.mot ∧ (raiseIfReady s).fau = s.fau ∧
    (raiseIfReady s).lnk = s.lnk ∧ (raiseIfReady s).store = s.store ∧ (raiseIfReady s).clock = s.clock ∧
    (raiseIfReady s).pending = s.pending := by
  unfold raiseIfReady; split <;> simp

@[simp] theorem addPendingFault_keeps (s : State) :
    (addPendingFault s).stu = s.stu ∧ (addPendingFault s).wmu = s.wmu ∧ (addPendingFault s).pgs = s.pgs ∧
    (addPendingFault s).sqc = s.sqc ∧ (addPendingFault s).tmu = s.tmu ∧ (addPendingFault s).mot = s.mot ∧
    (addPendingFault s).fau = s.fau ∧ (addPendingFault s).lnk = s.lnk ∧ (addPendingFault s).store = s.store ∧
    (addPendingFault s).clock = s.clock ∧ (addPendingFault s).pending = s.pending := by
  unfold addPendingFault; split <;> simp

@[simp] theorem judgeStarved_keeps (s : State) :
    (judgeStarved s).stu = s.stu ∧ (judgeStarved s).wmu = s.wmu ∧ (judgeStarved s).pgs = s.pgs ∧
    (judgeStarved s).sqc = s.sqc ∧ (judgeStarved s).tmu = s.tmu ∧ (judgeStarved s).mot = s.mot ∧
    (judgeStarved s).fau = s.fau ∧ (judgeStarved s).lnk = s.lnk ∧ (judgeStarved s).store = s.store ∧
    (judgeStarved s).clock = s.clock ∧ (judgeStarved s).pending = s.pending := by
  unfold judgeStarved; split <;> simp

/-! ### Faults of class W and D -/

@[simp] theorem takeFault_keeps (r : FaultRecord) (s : State) :
    (takeFault r s).msv = s.msv ∧ (takeFault r s).stu = s.stu ∧ (takeFault r s).wmu = s.wmu ∧
    (takeFault r s).pgs = s.pgs ∧ (takeFault r s).sqc = s.sqc ∧ (takeFault r s).tmu = s.tmu ∧
    (takeFault r s).mot = s.mot ∧ (takeFault r s).store = s.store ∧ (takeFault r s).clock = s.clock ∧
    (takeFault r s).pending = s.pending := by
  unfold takeFault; simp

@[simp] theorem classD_keeps (s : State) :
    (classD s).stu = s.stu ∧ (classD s).wmu = s.wmu ∧ (classD s).pgs = s.pgs ∧ (classD s).sqc = s.sqc ∧
    (classD s).tmu = s.tmu ∧ (classD s).mot = s.mot ∧ (classD s).fau = s.fau ∧ (classD s).lnk = s.lnk ∧
    (classD s).store = s.store ∧ (classD s).clock = s.clock ∧ (classD s).pending = s.pending := by
  unfold classD; (repeat' split) <;> simp

@[simp] theorem raiseW_keeps (k : FaultKind) (i : Option Item) (p : Option Nat) (d : Int) (s : State) :
    (raiseW k i p d s).msv = s.msv ∧ (raiseW k i p d s).stu = s.stu ∧ (raiseW k i p d s).wmu = s.wmu ∧
    (raiseW k i p d s).pgs = s.pgs ∧ (raiseW k i p d s).sqc = s.sqc ∧ (raiseW k i p d s).tmu = s.tmu ∧
    (raiseW k i p d s).mot = s.mot ∧ (raiseW k i p d s).store = s.store ∧ (raiseW k i p d s).clock = s.clock ∧
    (raiseW k i p d s).pending = s.pending := by
  unfold raiseW; simp

@[simp] theorem raiseD_keeps (k : FaultKind) (i : Option Item) (p : Option Nat) (d : Int) (s : State) :
    (raiseD k i p d s).stu = s.stu ∧ (raiseD k i p d s).wmu = s.wmu ∧ (raiseD k i p d s).pgs = s.pgs ∧
    (raiseD k i p d s).sqc = s.sqc ∧ (raiseD k i p d s).tmu = s.tmu ∧ (raiseD k i p d s).mot = s.mot ∧
    (raiseD k i p d s).store = s.store ∧ (raiseD k i p d s).clock = s.clock ∧ (raiseD k i p d s).pending = s.pending := by
  unfold raiseD; simp

/-! ### Items -/

@[simp] theorem setItemState_keeps (i : Item) (st : ItemState) (s : State) :
    (setItemState i st s).msv = s.msv ∧ (setItemState i st s).stu = s.stu ∧ (setItemState i st s).wmu = s.wmu ∧
    (setItemState i st s).sqc = s.sqc ∧ (setItemState i st s).tmu = s.tmu ∧ (setItemState i st s).mot = s.mot ∧
    (setItemState i st s).fau = s.fau ∧ (setItemState i st s).lnk = s.lnk ∧ (setItemState i st s).store = s.store ∧
    (setItemState i st s).clock = s.clock ∧ (setItemState i st s).pending = s.pending := ⟨rfl, rfl, rfl, rfl, rfl, rfl, rfl, rfl, rfl, rfl, rfl⟩

@[simp] theorem abandonItem_keeps (i : Item) (w : Reason) (s : State) :
    (abandonItem i w s).msv = s.msv ∧ (abandonItem i w s).stu = s.stu ∧ (abandonItem i w s).wmu = s.wmu ∧
    (abandonItem i w s).sqc = s.sqc ∧ (abandonItem i w s).tmu = s.tmu ∧ (abandonItem i w s).mot = s.mot ∧
    (abandonItem i w s).fau = s.fau ∧ (abandonItem i w s).lnk = s.lnk ∧ (abandonItem i w s).store = s.store ∧
    (abandonItem i w s).clock = s.clock ∧ (abandonItem i w s).pending = s.pending := ⟨rfl, rfl, rfl, rfl, rfl, rfl, rfl, rfl, rfl, rfl, rfl⟩

@[simp] theorem placeReturned_keeps (i : Item) (s : State) :
    (placeReturned i s).msv = s.msv ∧ (placeReturned i s).stu = s.stu ∧ (placeReturned i s).wmu = s.wmu ∧
    (placeReturned i s).tmu = s.tmu ∧ (placeReturned i s).mot = s.mot ∧ (placeReturned i s).fau = s.fau ∧
    (placeReturned i s).lnk = s.lnk ∧ (placeReturned i s).store = s.store ∧ (placeReturned i s).clock = s.clock ∧
    (placeReturned i s).pending = s.pending := by
  unfold placeReturned; split <;> simp

@[simp] theorem returnTried_keeps (i : Item) (s : State) :
    (returnTried i s).msv = s.msv ∧ (returnTried i s).stu = s.stu ∧ (returnTried i s).wmu = s.wmu ∧
    (returnTried i s).tmu = s.tmu ∧ (returnTried i s).mot = s.mot ∧ (returnTried i s).fau = s.fau ∧
    (returnTried i s).lnk = s.lnk ∧ (returnTried i s).store = s.store ∧ (returnTried i s).clock = s.clock ∧
    (returnTried i s).pending = s.pending := by
  unfold returnTried; dsimp only; split <;> simp

@[simp] theorem raiseAbandoned_keeps (i : Item) (s : State) :
    (raiseAbandoned i s).msv = s.msv ∧ (raiseAbandoned i s).stu = s.stu ∧ (raiseAbandoned i s).wmu = s.wmu ∧
    (raiseAbandoned i s).pgs = s.pgs ∧ (raiseAbandoned i s).sqc = s.sqc ∧ (raiseAbandoned i s).tmu = s.tmu ∧
    (raiseAbandoned i s).mot = s.mot ∧ (raiseAbandoned i s).store = s.store ∧ (raiseAbandoned i s).clock = s.clock ∧
    (raiseAbandoned i s).pending = s.pending := by
  unfold raiseAbandoned; simp

@[simp] theorem returnWithTry_keeps (i : Item) (s : State) :
    (returnWithTry i s).msv = s.msv ∧ (returnWithTry i s).stu = s.stu ∧ (returnWithTry i s).wmu = s.wmu ∧
    (returnWithTry i s).tmu = s.tmu ∧ (returnWithTry i s).mot = s.mot ∧ (returnWithTry i s).store = s.store ∧
    (returnWithTry i s).clock = s.clock ∧ (returnWithTry i s).pending = s.pending := by
  unfold returnWithTry; split <;> simp

@[simp] theorem pendAll_keeps (l : List Item) (s : State) :
    (pendAll l s).msv = s.msv ∧ (pendAll l s).stu = s.stu ∧ (pendAll l s).wmu = s.wmu ∧ (pendAll l s).sqc = s.sqc ∧
    (pendAll l s).tmu = s.tmu ∧ (pendAll l s).mot = s.mot ∧ (pendAll l s).fau = s.fau ∧ (pendAll l s).lnk = s.lnk ∧
    (pendAll l s).store = s.store ∧ (pendAll l s).clock = s.clock ∧ (pendAll l s).pending = s.pending := by
  unfold pendAll
  refine foldl_ind (fun t : State => t.msv = s.msv ∧ t.stu = s.stu ∧ t.wmu = s.wmu ∧ t.sqc = s.sqc ∧ t.tmu = s.tmu ∧ t.mot = s.mot ∧ t.fau = s.fau ∧
      t.lnk = s.lnk ∧ t.store = s.store ∧ t.clock = s.clock ∧ t.pending = s.pending) ?_ ?_
  · simp
  · intro t x h; simpa using h

@[simp] theorem abandonRange_keeps (i : Item) (p : Option Nat) (s : State) :
    (abandonRange i p s).msv = s.msv ∧ (abandonRange i p s).stu = s.stu ∧ (abandonRange i p s).wmu = s.wmu ∧
    (abandonRange i p s).tmu = s.tmu ∧ (abandonRange i p s).mot = s.mot ∧ (abandonRange i p s).store = s.store ∧
    (abandonRange i p s).clock = s.clock ∧ (abandonRange i p s).pending = s.pending := by
  unfold abandonRange; simp

@[simp] theorem assign_keeps (s : State) :
    (assign s).1.msv = s.msv ∧ (assign s).1.stu = s.stu ∧ (assign s).1.wmu = s.wmu ∧ (assign s).1.tmu = s.tmu ∧
    (assign s).1.mot = s.mot ∧ (assign s).1.store = s.store ∧ (assign s).1.clock = s.clock ∧
    (assign s).1.pending = s.pending := by
  have h (l : List Item) :
      (l.foldl (fun t i => abandonRange i (some 1) t) s).msv = s.msv ∧
      (l.foldl (fun t i => abandonRange i (some 1) t) s).stu = s.stu ∧
      (l.foldl (fun t i => abandonRange i (some 1) t) s).wmu = s.wmu ∧
      (l.foldl (fun t i => abandonRange i (some 1) t) s).tmu = s.tmu ∧
      (l.foldl (fun t i => abandonRange i (some 1) t) s).mot = s.mot ∧
      (l.foldl (fun t i => abandonRange i (some 1) t) s).store = s.store ∧
      (l.foldl (fun t i => abandonRange i (some 1) t) s).clock = s.clock ∧
      (l.foldl (fun t i => abandonRange i (some 1) t) s).pending = s.pending := by
    refine foldl_ind (fun t : State => t.msv = s.msv ∧ t.stu = s.stu ∧ t.wmu = s.wmu ∧ t.tmu = s.tmu ∧ t.mot = s.mot ∧ t.store = s.store ∧ t.clock = s.clock ∧ t.pending = s.pending) ?_ ?_
    · simp
    · intro t x h; simpa using h
  unfold assign; split
  · simp
  · dsimp only; split <;> simp [h]

/-! ### Channels and the head load -/

@[simp] theorem mapChannels_keeps (f : ChannelNo → Channel → Channel) (s : State) :
    (mapChannels f s).msv = s.msv ∧ (mapChannels f s).wmu = s.wmu ∧ (mapChannels f s).pgs = s.pgs ∧
    (mapChannels f s).sqc = s.sqc ∧ (mapChannels f s).tmu = s.tmu ∧ (mapChannels f s).mot = s.mot ∧
    (mapChannels f s).fau = s.fau ∧ (mapChannels f s).lnk = s.lnk ∧ (mapChannels f s).store = s.store ∧
    (mapChannels f s).clock = s.clock ∧ (mapChannels f s).pending = s.pending := by
  unfold mapChannels
  refine foldl_ind (fun t : State => t.msv = s.msv ∧ t.wmu = s.wmu ∧ t.pgs = s.pgs ∧ t.sqc = s.sqc ∧ t.tmu = s.tmu ∧ t.mot = s.mot ∧ t.fau = s.fau ∧
      t.lnk = s.lnk ∧ t.store = s.store ∧ t.clock = s.clock ∧ t.pending = s.pending) ?_ ?_
  · simp
  · intro t x h; simpa using h

@[simp] theorem commandOff_keeps (i : ChannelNo) (s : State) :
    (commandOff i s).msv = s.msv ∧ (commandOff i s).wmu = s.wmu ∧ (commandOff i s).pgs = s.pgs ∧
    (commandOff i s).sqc = s.sqc ∧ (commandOff i s).tmu = s.tmu ∧ (commandOff i s).mot = s.mot ∧
    (commandOff i s).fau = s.fau ∧ (commandOff i s).lnk = s.lnk ∧ (commandOff i s).store = s.store ∧
    (commandOff i s).clock = s.clock ∧ (commandOff i s).pending = s.pending := ⟨rfl, rfl, rfl, rfl, rfl, rfl, rfl, rfl, rfl, rfl, rfl⟩

@[simp] theorem dropHeadChannels_keeps (s : State) :
    (dropHeadChannels s).msv = s.msv ∧ (dropHeadChannels s).wmu = s.wmu ∧ (dropHeadChannels s).pgs = s.pgs ∧
    (dropHeadChannels s).sqc = s.sqc ∧ (dropHeadChannels s).tmu = s.tmu ∧ (dropHeadChannels s).mot = s.mot ∧
    (dropHeadChannels s).fau = s.fau ∧ (dropHeadChannels s).lnk = s.lnk ∧ (dropHeadChannels s).store = s.store ∧
    (dropHeadChannels s).clock = s.clock ∧ (dropHeadChannels s).pending = s.pending := by
  unfold dropHeadChannels; split <;> simp

@[simp] theorem setHead_keeps (h : HeadLoad) (s : State) :
    (setHead h s).msv = s.msv ∧ (setHead h s).pgs = s.pgs ∧ (setHead h s).sqc = s.sqc ∧ (setHead h s).tmu = s.tmu ∧
    (setHead h s).mot = s.mot ∧ (setHead h s).fau = s.fau ∧ (setHead h s).lnk = s.lnk ∧
    (setHead h s).store = s.store ∧ (setHead h s).clock = s.clock ∧ (setHead h s).pending = s.pending := by
  unfold setHead; simp

/-! ### Leaving RUNNING and STOPPING -/

@[simp] theorem leaveRun_keeps (m : MachineState) (s : State) :
    (leaveRun m s).pgs = s.pgs ∧ (leaveRun m s).fau = s.fau ∧ (leaveRun m s).lnk = s.lnk ∧
    (leaveRun m s).store = s.store ∧ (leaveRun m s).clock = s.clock ∧ (leaveRun m s).pending = s.pending := by
  simp [leaveRun]

@[simp] theorem enterState_keeps (m : MachineState) (s : State) :
    (enterState m s).pgs = s.pgs ∧ (enterState m s).fau = s.fau ∧ (enterState m s).lnk = s.lnk ∧
    (enterState m s).store = s.store ∧ (enterState m s).clock = s.clock ∧ (enterState m s).pending = s.pending := by
  unfold enterState; split <;> simp

@[simp] theorem endRun_keeps (s : State) :
    (endRun s).pgs = s.pgs ∧ (endRun s).fau = s.fau ∧ (endRun s).lnk = s.lnk ∧ (endRun s).store = s.store ∧
    (endRun s).clock = s.clock ∧ (endRun s).pending = s.pending := by
  unfold endRun; split <;> simp

@[simp] theorem countPanel_keeps (s : State) :
    (countPanel s).1.pgs = s.pgs ∧ (countPanel s).1.fau = s.fau ∧ (countPanel s).1.lnk = s.lnk ∧
    (countPanel s).1.store = s.store ∧ (countPanel s).1.clock = s.clock ∧ (countPanel s).1.pending = s.pending := by
  unfold countPanel; (repeat' split) <;> simp

/-! ### Panels and the reel -/

@[simp] theorem adoptSetup_keeps (s : State) :
    (adoptSetup s).msv = s.msv ∧ (adoptSetup s).stu = s.stu ∧ (adoptSetup s).wmu = s.wmu ∧
    (adoptSetup s).sqc = s.sqc ∧ (adoptSetup s).tmu = s.tmu ∧ (adoptSetup s).mot = s.mot ∧
    (adoptSetup s).fau = s.fau ∧ (adoptSetup s).lnk = s.lnk ∧ (adoptSetup s).store = s.store ∧
    (adoptSetup s).clock = s.clock ∧ (adoptSetup s).pending = s.pending := by
  unfold adoptSetup; split <;> simp

@[simp] theorem openPanel_keeps (m : RunMode) (s : State) :
    (openPanel m s).stu = s.stu ∧ (openPanel m s).wmu = s.wmu ∧ (openPanel m s).sqc = s.sqc ∧
    (openPanel m s).tmu = s.tmu ∧ (openPanel m s).mot = s.mot ∧ (openPanel m s).fau = s.fau ∧
    (openPanel m s).lnk = s.lnk ∧ (openPanel m s).store = s.store ∧ (openPanel m s).clock = s.clock ∧
    (openPanel m s).pending = s.pending := by
  simp [openPanel]

@[simp] theorem appendEntry_keeps (e : TapeEntry) (s : State) :
    (appendEntry e s).msv = s.msv ∧ (appendEntry e s).stu = s.stu ∧ (appendEntry e s).wmu = s.wmu ∧
    (appendEntry e s).pgs = s.pgs ∧ (appendEntry e s).sqc = s.sqc ∧ (appendEntry e s).mot = s.mot ∧
    (appendEntry e s).fau = s.fau ∧ (appendEntry e s).lnk = s.lnk ∧ (appendEntry e s).store = s.store ∧
    (appendEntry e s).clock = s.clock ∧ (appendEntry e s).pending = s.pending := by
  unfold appendEntry; split <;> simp

@[simp] theorem pulseGap_keeps (t : Bool) (s : State) :
    (pulseGap t s).msv = s.msv ∧ (pulseGap t s).stu = s.stu ∧ (pulseGap t s).wmu = s.wmu ∧
    (pulseGap t s).pgs = s.pgs ∧ (pulseGap t s).sqc = s.sqc ∧ (pulseGap t s).mot = s.mot ∧
    (pulseGap t s).fau = s.fau ∧ (pulseGap t s).lnk = s.lnk ∧ (pulseGap t s).store = s.store ∧
    (pulseGap t s).clock = s.clock ∧ (pulseGap t s).pending = s.pending := by
  unfold pulseGap; split <;> simp

@[simp] theorem passEndAppend_keeps (s : State) :
    (passEndAppend s).stu = s.stu ∧ (passEndAppend s).wmu = s.wmu ∧ (passEndAppend s).pgs = s.pgs ∧
    (passEndAppend s).sqc = s.sqc ∧ (passEndAppend s).mot = s.mot ∧ (passEndAppend s).store = s.store ∧
    (passEndAppend s).clock = s.clock ∧ (passEndAppend s).pending = s.pending := by
  unfold passEndAppend; dsimp only; (repeat' split) <;> simp

@[simp] theorem pulseBoard_keeps (s : State) :
    (pulseBoard s).msv = s.msv ∧ (pulseBoard s).stu = s.stu ∧ (pulseBoard s).wmu = s.wmu ∧
    (pulseBoard s).sqc = s.sqc ∧ (pulseBoard s).tmu = s.tmu ∧ (pulseBoard s).mot = s.mot ∧
    (pulseBoard s).fau = s.fau ∧ (pulseBoard s).lnk = s.lnk ∧ (pulseBoard s).store = s.store ∧
    (pulseBoard s).clock = s.clock ∧ (pulseBoard s).pending = s.pending := by
  unfold pulseBoard; split <;> simp

@[simp] theorem closePanel_keeps (m : RunMode) (e : PanelEnding) (s : State) :
    (closePanel m e s).msv = s.msv ∧ (closePanel m e s).stu = s.stu ∧ (closePanel m e s).wmu = s.wmu ∧
    (closePanel m e s).sqc = s.sqc ∧ (closePanel m e s).tmu = s.tmu ∧ (closePanel m e s).mot = s.mot ∧
    (closePanel m e s).fau = s.fau ∧ (closePanel m e s).store = s.store ∧ (closePanel m e s).clock = s.clock ∧
    (closePanel m e s).pending = s.pending := by
  unfold closePanel; dsimp only; split <;> simp

/-! ### Service operations and motions -/

@[simp] theorem restoreLoop_keeps (o : ServiceOp) (s : State) :
    (restoreLoop o s).msv = s.msv ∧ (restoreLoop o s).stu = s.stu ∧ (restoreLoop o s).wmu = s.wmu ∧
    (restoreLoop o s).pgs = s.pgs ∧ (restoreLoop o s).sqc = s.sqc ∧ (restoreLoop o s).tmu = s.tmu ∧
    (restoreLoop o s).fau = s.fau ∧ (restoreLoop o s).lnk = s.lnk ∧ (restoreLoop o s).store = s.store ∧
    (restoreLoop o s).clock = s.clock ∧ (restoreLoop o s).pending = s.pending := by
  unfold restoreLoop; split <;> simp

@[simp] theorem finishService_keeps (o : ServiceOp) (r : DoneResult) (k : Option FaultKind) (s : State) :
    (finishService o r k s).msv = s.msv ∧ (finishService o r k s).stu = s.stu ∧
    (finishService o r k s).wmu = s.wmu ∧ (finishService o r k s).pgs = s.pgs ∧
    (finishService o r k s).sqc = s.sqc ∧ (finishService o r k s).tmu = s.tmu ∧
    (finishService o r k s).fau = s.fau ∧ (finishService o r k s).store = s.store ∧
    (finishService o r k s).clock = s.clock ∧ (finishService o r k s).pending = s.pending := by
  simp [finishService]

@[simp] theorem stopService_keeps (k : FaultKind) (s : State) :
    (stopService k s).msv = s.msv ∧ (stopService k s).stu = s.stu ∧ (stopService k s).wmu = s.wmu ∧
    (stopService k s).pgs = s.pgs ∧ (stopService k s).sqc = s.sqc ∧ (stopService k s).tmu = s.tmu ∧
    (stopService k s).fau = s.fau ∧ (stopService k s).store = s.store ∧ (stopService k s).clock = s.clock ∧
    (stopService k s).pending = s.pending := by
  unfold stopService; split <;> simp

@[simp] theorem stopMotion_keeps (k : FaultKind) (s : State) :
    (stopMotion k s).msv = s.msv ∧ (stopMotion k s).stu = s.stu ∧ (stopMotion k s).wmu = s.wmu ∧
    (stopMotion k s).pgs = s.pgs ∧ (stopMotion k s).sqc = s.sqc ∧ (stopMotion k s).tmu = s.tmu ∧
    (stopMotion k s).fau = s.fau ∧ (stopMotion k s).store = s.store ∧ (stopMotion k s).clock = s.clock ∧
    (stopMotion k s).pending = s.pending := by
  simp [stopMotion]

@[simp] theorem cutMotion_keeps (s : State) :
    (cutMotion s).msv = s.msv ∧ (cutMotion s).stu = s.stu ∧ (cutMotion s).wmu = s.wmu ∧ (cutMotion s).pgs = s.pgs ∧
    (cutMotion s).sqc = s.sqc ∧ (cutMotion s).tmu = s.tmu ∧ (cutMotion s).fau = s.fau ∧ (cutMotion s).lnk = s.lnk ∧
    (cutMotion s).store = s.store ∧ (cutMotion s).clock = s.clock ∧ (cutMotion s).pending = s.pending := ⟨rfl, rfl, rfl, rfl, rfl, rfl, rfl, rfl, rfl, rfl, rfl⟩

@[simp] theorem haltMotion_keeps (k : FaultKind) (s : State) :
    (haltMotion k s).msv = s.msv ∧ (haltMotion k s).stu = s.stu ∧ (haltMotion k s).wmu = s.wmu ∧
    (haltMotion k s).pgs = s.pgs ∧ (haltMotion k s).sqc = s.sqc ∧ (haltMotion k s).tmu = s.tmu ∧
    (haltMotion k s).fau = s.fau ∧ (haltMotion k s).store = s.store ∧ (haltMotion k s).clock = s.clock ∧
    (haltMotion k s).pending = s.pending := by
  unfold haltMotion; dsimp only; split <;> simp

@[simp] theorem haltShaft_keeps (s : State) :
    (haltShaft s).msv = s.msv ∧ (haltShaft s).wmu = s.wmu ∧ (haltShaft s).pgs = s.pgs ∧ (haltShaft s).sqc = s.sqc ∧
    (haltShaft s).tmu = s.tmu ∧ (haltShaft s).mot = s.mot ∧ (haltShaft s).fau = s.fau ∧ (haltShaft s).lnk = s.lnk ∧
    (haltShaft s).store = s.store ∧ (haltShaft s).clock = s.clock ∧ (haltShaft s).pending = s.pending := by
  simp [haltShaft]

@[simp] theorem itemLeaves_keeps (s : State) :
    (itemLeaves s).msv = s.msv ∧ (itemLeaves s).tmu = s.tmu ∧ (itemLeaves s).mot = s.mot ∧ (itemLeaves s).fau = s.fau ∧
    (itemLeaves s).lnk = s.lnk ∧ (itemLeaves s).store = s.store ∧ (itemLeaves s).clock = s.clock ∧
    (itemLeaves s).pending = s.pending := by
  unfold itemLeaves; (repeat' split) <;> simp

@[simp] theorem haltSupervisor_keeps (k : FaultKind) (s : State) :
    (haltSupervisor k s).pgs = s.pgs ∧ (haltSupervisor k s).fau = s.fau ∧ (haltSupervisor k s).store = s.store ∧
    (haltSupervisor k s).clock = s.clock ∧ (haltSupervisor k s).pending = s.pending := by
  unfold haltSupervisor; dsimp only; split <;> simp

@[simp] theorem endSingle_keeps (s : State) :
    (endSingle s).stu = s.stu ∧ (endSingle s).wmu = s.wmu ∧ (endSingle s).pgs = s.pgs ∧ (endSingle s).sqc = s.sqc ∧
    (endSingle s).tmu = s.tmu ∧ (endSingle s).mot = s.mot ∧ (endSingle s).fau = s.fau ∧ (endSingle s).lnk = s.lnk ∧
    (endSingle s).store = s.store ∧ (endSingle s).clock = s.clock ∧ (endSingle s).pending = s.pending := ⟨rfl, rfl, rfl, rfl, rfl, rfl, rfl, rfl, rfl, rfl, rfl⟩

@[simp] theorem issuePulses_keeps (a : Axis) (n : Nat) (s : State) :
    (issuePulses a n s).msv = s.msv ∧ (issuePulses a n s).stu = s.stu ∧
    (issuePulses a n s).wmu = s.wmu ∧ (issuePulses a n s).pgs = s.pgs ∧
    (issuePulses a n s).sqc = s.sqc ∧ (issuePulses a n s).tmu = s.tmu ∧
    (issuePulses a n s).fau = s.fau ∧ (issuePulses a n s).lnk = s.lnk ∧
    (issuePulses a n s).store = s.store ∧ (issuePulses a n s).clock = s.clock ∧
    (issuePulses a n s).pending = s.pending := ⟨rfl, rfl, rfl, rfl, rfl, rfl, rfl, rfl, rfl, rfl, rfl⟩

@[simp] theorem startSearch_keeps (a : Axis) (s : State) :
    (startSearch a s).msv = s.msv ∧ (startSearch a s).stu = s.stu ∧ (startSearch a s).wmu = s.wmu ∧
    (startSearch a s).pgs = s.pgs ∧ (startSearch a s).sqc = s.sqc ∧ (startSearch a s).tmu = s.tmu ∧
    (startSearch a s).fau = s.fau ∧ (startSearch a s).lnk = s.lnk ∧ (startSearch a s).store = s.store ∧
    (startSearch a s).clock = s.clock ∧ (startSearch a s).pending = s.pending := ⟨rfl, rfl, rfl, rfl, rfl, rfl, rfl, rfl, rfl, rfl, rfl⟩

/-- Outside a HOME whose searches may start, no search starts. -/
theorem startSearches_outside {s : State} (h : s.msv.home ≠ some false) : startSearches s = s := by
  unfold startSearches
  exact if_neg h

/-- With no axis waiting for its search, none starts. -/
theorem startSearches_none_waits {s : State} (h : ∀ a, waitsForSearch a s = false) : startSearches s = s := by
  simp [startSearches, h]

/-- An axis that issues no pulses stands where its motion ends, but for an INTERNAL loop test. -/
theorem motionEnd_idle {a : Axis} {s : State} (h : (s.mot.axis a).drive = .idle) (hl : internalLoop a s = false) :
    motionEnd a s = movePosition a (s.mot.axis a).commanded 0 := by
  have hk : pulsesAllowed a false 0 (s.mot.axis a) = 0 := by
    unfold pulsesAllowed
    (repeat' split) <;> simp_all
  have hl' := hl
  unfold internalLoop at hl'
  unfold motionEnd
  simp only [h, AxisRec.left, Drive.positive, hk, signedPulses]
  split
  · rename_i hs
    simp only [hs] at hl'
    rw [if_neg (by simpa using hl')]
    rfl
  · rfl

/-- The saved position of an INTERNAL loop test is where the motion of its axis ends. -/
theorem motionEnd_internal {b : TableAxis} {n m w : Nat} {c f : Int} {e : EndCause} {s : State}
    (h : s.mot.service = some (.loop b true n m w c f e)) : motionEnd (tableAxis b) s = c := by
  simp [motionEnd, h]

@[simp] theorem startSearches_keeps (s : State) :
    (startSearches s).msv = s.msv ∧ (startSearches s).stu = s.stu ∧ (startSearches s).wmu = s.wmu ∧
    (startSearches s).pgs = s.pgs ∧ (startSearches s).sqc = s.sqc ∧ (startSearches s).tmu = s.tmu ∧
    (startSearches s).fau = s.fau ∧ (startSearches s).lnk = s.lnk ∧ (startSearches s).store = s.store ∧
    (startSearches s).clock = s.clock ∧ (startSearches s).pending = s.pending := by
  unfold startSearches; split
  · dsimp only; (repeat' split) <;> simp
  · simp

@[simp] theorem searchOver_keeps (a : Axis) (s : State) :
    (searchOver a s).msv = s.msv ∧ (searchOver a s).stu = s.stu ∧ (searchOver a s).wmu = s.wmu ∧
    (searchOver a s).pgs = s.pgs ∧ (searchOver a s).sqc = s.sqc ∧ (searchOver a s).tmu = s.tmu ∧
    (searchOver a s).fau = s.fau ∧ (searchOver a s).lnk = s.lnk ∧ (searchOver a s).store = s.store ∧
    (searchOver a s).clock = s.clock ∧ (searchOver a s).pending = s.pending := by
  unfold searchOver; split <;> simp

@[simp] theorem searchEnds_keeps (a : Axis) (s : State) :
    (searchEnds a s).msv = s.msv ∧ (searchEnds a s).stu = s.stu ∧ (searchEnds a s).wmu = s.wmu ∧
    (searchEnds a s).pgs = s.pgs ∧ (searchEnds a s).sqc = s.sqc ∧ (searchEnds a s).tmu = s.tmu ∧
    (searchEnds a s).fau = s.fau ∧ (searchEnds a s).lnk = s.lnk ∧ (searchEnds a s).store = s.store ∧
    (searchEnds a s).clock = s.clock ∧ (searchEnds a s).pending = s.pending := by
  unfold searchEnds; simp

@[simp] theorem startPlan_keeps (p : Plan) (s : State) :
    (startPlan p s).msv = s.msv ∧ (startPlan p s).stu = s.stu ∧ (startPlan p s).wmu = s.wmu ∧
    (startPlan p s).pgs = s.pgs ∧ (startPlan p s).sqc = s.sqc ∧ (startPlan p s).tmu = s.tmu ∧
    (startPlan p s).fau = s.fau ∧ (startPlan p s).lnk = s.lnk ∧ (startPlan p s).store = s.store ∧
    (startPlan p s).clock = s.clock ∧ (startPlan p s).pending = s.pending := by
  unfold startPlan; dsimp only
  refine foldl_ind (fun t : State => t.msv = s.msv ∧ t.stu = s.stu ∧ t.wmu = s.wmu ∧ t.pgs = s.pgs ∧ t.sqc = s.sqc ∧ t.tmu = s.tmu ∧ t.fau = s.fau ∧
      t.lnk = s.lnk ∧ t.store = s.store ∧ t.clock = s.clock ∧ t.pending = s.pending) ?_ ?_
  · simp
  · intro t x h; simpa using h

@[simp] theorem startHeld_keeps (s : State) :
    (startHeld s).msv = s.msv ∧ (startHeld s).stu = s.stu ∧ (startHeld s).wmu = s.wmu ∧ (startHeld s).pgs = s.pgs ∧
    (startHeld s).sqc = s.sqc ∧ (startHeld s).tmu = s.tmu ∧ (startHeld s).fau = s.fau ∧ (startHeld s).lnk = s.lnk ∧
    (startHeld s).store = s.store ∧ (startHeld s).clock = s.clock ∧ (startHeld s).pending = s.pending := by
  unfold startHeld; split
  · split <;> simp
  · simp

@[simp] theorem releaseC_keeps (a : Axis) (s : State) :
    (releaseC a s).msv = s.msv ∧ (releaseC a s).stu = s.stu ∧ (releaseC a s).wmu = s.wmu ∧
    (releaseC a s).pgs = s.pgs ∧ (releaseC a s).sqc = s.sqc ∧ (releaseC a s).tmu = s.tmu ∧
    (releaseC a s).fau = s.fau ∧ (releaseC a s).lnk = s.lnk ∧ (releaseC a s).store = s.store ∧
    (releaseC a s).clock = s.clock ∧ (releaseC a s).pending = s.pending := by
  unfold releaseC; (repeat' split) <;> simp

@[simp] theorem adoptLegRates_keeps (l : List Leg) (s : State) :
    (adoptLegRates l s).msv = s.msv ∧ (adoptLegRates l s).stu = s.stu ∧ (adoptLegRates l s).wmu = s.wmu ∧
    (adoptLegRates l s).pgs = s.pgs ∧ (adoptLegRates l s).sqc = s.sqc ∧ (adoptLegRates l s).tmu = s.tmu ∧
    (adoptLegRates l s).fau = s.fau ∧ (adoptLegRates l s).lnk = s.lnk ∧ (adoptLegRates l s).store = s.store ∧
    (adoptLegRates l s).clock = s.clock ∧ (adoptLegRates l s).pending = s.pending := by
  unfold adoptLegRates
  refine foldl_ind (fun t : State => t.msv = s.msv ∧ t.stu = s.stu ∧ t.wmu = s.wmu ∧ t.pgs = s.pgs ∧ t.sqc = s.sqc ∧ t.tmu = s.tmu ∧ t.fau = s.fau ∧
      t.lnk = s.lnk ∧ t.store = s.store ∧ t.clock = s.clock ∧ t.pending = s.pending) ?_ ?_
  · simp
  · intro t x h; simpa using h

@[simp] theorem holdPlan_keeps (i : Item) (o f : Bool) (s : State) :
    (holdPlan i o f s).1.stu = s.stu ∧ (holdPlan i o f s).1.wmu = s.wmu ∧ (holdPlan i o f s).1.pgs = s.pgs ∧
    (holdPlan i o f s).1.sqc = s.sqc ∧ (holdPlan i o f s).1.tmu = s.tmu ∧ (holdPlan i o f s).1.fau = s.fau ∧
    (holdPlan i o f s).1.lnk = s.lnk ∧ (holdPlan i o f s).1.store = s.store ∧ (holdPlan i o f s).1.clock = s.clock ∧
    (holdPlan i o f s).1.pending = s.pending := by
  unfold holdPlan; dsimp only; split
  · simp
  · dsimp only; split <;> simp

end Sys2Proof.Machine
end

