-- ==== Sys2Proof/Laws/Table.lean ====
section
/-! SUPPORT. The addressed tables (the step table, the span table, the item state table, the tape map): a write is read back,
leaves every other position alone and keeps the canonical form. -/

namespace Sys2Proof.Machine

variable {α : Type} [DecidableEq α] {d : α} {t : Table α} {n m lo : Nat} {v : α}

theorem wfFrom_mono (h : lo ≤ m) : Table.wfFrom d m t = true → Table.wfFrom d lo t = true := by
  cases t with
  | nil => simp [Table.wfFrom]
  | cons e t =>
    obtain ⟨k, w⟩ := e
    simp only [Table.wfFrom, Bool.and_eq_true, decide_eq_true_eq]
    rintro ⟨⟨h1, h2⟩, h3⟩
    exact ⟨⟨by omega, h2⟩, h3⟩

theorem read_below (h : Table.wfFrom d m t = true) (hn : n < m) : Table.read d t n = d := by
  induction t generalizing m with
  | nil => rfl
  | cons e t ih =>
    obtain ⟨k, w⟩ := e
    simp only [Table.wfFrom, Bool.and_eq_true, decide_eq_true_eq] at h
    simp only [Table.read]
    rw [if_neg (by omega)]
    exact ih h.2 (by omega)

theorem wfFrom_write (h : Table.wfFrom d lo t = true) (hn : lo ≤ n) : Table.wfFrom d lo (Table.write d t n v) = true := by
  induction t generalizing lo with
  | nil => by_cases hv : v = d <;> simp [Table.write, Table.wfFrom, hv, hn]
  | cons e t ih =>
    obtain ⟨k, w⟩ := e
    simp only [Table.wfFrom, Bool.and_eq_true, decide_eq_true_eq] at h
    obtain ⟨⟨h1, h2⟩, h3⟩ := h
    simp only [Table.write]
    split
    · split <;> simp_all [Table.wfFrom]
      all_goals omega
    · split
      · split
        · exact wfFrom_mono (by omega) h3
        · simp_all [Table.wfFrom]
      · simp only [Table.wfFrom, Bool.and_eq_true, decide_eq_true_eq]
        exact ⟨⟨h1, h2⟩, ih h3 (by omega)⟩

/-- A write keeps the canonical form. -/
theorem wf_write (h : Table.wf d t = true) : Table.wf d (Table.write d t n v) = true := wfFrom_write h (Nat.zero_le n)

/-- What has been written is read back. -/
theorem read_write_same (h : Table.wfFrom d lo t = true) : Table.read d (Table.write d t n v) n = v := by
  induction t generalizing lo with
  | nil => by_cases hv : v = d <;> simp [Table.write, Table.read, hv]
  | cons e t ih =>
    obtain ⟨k, w⟩ := e
    simp only [Table.wfFrom, Bool.and_eq_true, decide_eq_true_eq] at h
    obtain ⟨⟨h1, h2⟩, h3⟩ := h
    simp only [Table.write]
    split
    · split
      · rename_i hnk hv
        simp only [Table.read]
        rw [if_neg (by omega), read_below h3 (by omega), hv]
      · simp [Table.read]
    · split
      · split
        · rename_i hnk hv
          rw [read_below h3 (by omega), hv]
        · simp_all [Table.read]
      · simp only [Table.read]
        rw [if_neg (by omega)]
        exact ih h3

/-- A write leaves every other position as it was. -/
theorem read_write_other (h : Table.wfFrom d lo t = true) (hm : m ≠ n) :
    Table.read d (Table.write d t n v) m = Table.read d t m := by
  induction t generalizing lo with
  | nil => by_cases hv : v = d <;> simp [Table.write, Table.read, hv, hm]
  | cons e t ih =>
    obtain ⟨k, w⟩ := e
    simp only [Table.wfFrom, Bool.and_eq_true, decide_eq_true_eq] at h
    obtain ⟨⟨h1, h2⟩, h3⟩ := h
    simp only [Table.write]
    split
    · split <;> simp [Table.read, hm]
    · split
      · rename_i hnk
        split
        · simp only [Table.read]
          subst hnk
          rw [if_neg hm]
        · simp only [Table.read]
          subst hnk
          rw [if_neg hm, if_neg hm]
      · simp only [Table.read]
        split
        · rfl
        · exact ih h3

/-- The read of a table after a write, in one statement. -/
theorem read_write (h : Table.wf d t = true) :
    Table.read d (Table.write d t n v) m = if m = n then v else Table.read d t m := by
  split
  · subst m; exact read_write_same (lo := 0) h
  · exact read_write_other (lo := 0) h ‹_›

/-- The table with nothing listed is in its canonical form. -/
theorem wf_nil : Table.wf d ([] : Table α) = true := rfl

end Sys2Proof.Machine
end

