-- ==== Sys2Proof/Laws/Keeps.lean ====
section
/-! SUPPORT. What every shared operation keeps: the downloaded settings, the queue of commands, the line but for its report queue, and
the soundness of each block. Each block keeps its own soundness, whatever the others hold. -/

namespace Sys2Proof.Machine

/-- What an operation keeps but for the soundness of the supervisor. -/
structure Rest (s t : State) : Prop where
  store : t.store = s.store
  pending : t.pending = s.pending
  lnk : t.lnk = { s.lnk with queue := t.lnk.queue, overflow := t.lnk.overflow, trailing := t.lnk.trailing }
  stu : s.stu.Sound → t.stu.Sound
  wmu : s.wmu.Sound → t.wmu.Sound
  pgs : s.pgs.Sound → t.pgs.Sound
  sqc : s.sqc.Sound → t.sqc.Sound
  tmu : s.tmu.Sound → t.tmu.Sound
  mot : s.mot.Sound → t.mot.Sound
  fau : s.fau.Sound → t.fau.Sound
  queue : s.lnk.queue.length ≤ 24 → t.lnk.queue.length ≤ 24

/-- What an operation keeps, the soundness of every block among it. -/
structure Kept (s t : State) : Prop extends Rest s t where
  msv : s.msv.Sound → t.msv.Sound

variable {s t u : State}

theorem Rest.refl (s : State) : Rest s s := ⟨rfl, rfl, rfl, id, id, id, id, id, id, id, id⟩

theorem Kept.refl (s : State) : Kept s s := ⟨Rest.refl s, id⟩

theorem Rest.trans (h : Rest s t) (k : Rest t u) : Rest s u where
  store := k.store.trans h.store
  pending := k.pending.trans h.pending
  lnk := by rw [k.lnk, h.lnk]
  stu a := k.stu (h.stu a)
  wmu a := k.wmu (h.wmu a)
  pgs a := k.pgs (h.pgs a)
  sqc a := k.sqc (h.sqc a)
  tmu a := k.tmu (h.tmu a)
  mot a := k.mot (h.mot a)
  fau a := k.fau (h.fau a)
  queue a := k.queue (h.queue a)

theorem Kept.trans (h : Kept s t) (k : Kept t u) : Kept s u := ⟨h.toRest.trans k.toRest, fun a => k.msv (h.msv a)⟩

/-- An operation that leaves the supervisor alone keeps its soundness. -/
theorem Rest.kept (h : Rest s t) (e : t.msv = s.msv) : Kept s t := ⟨h, fun a => e ▸ a⟩

theorem kept_ite {c : Prop} [Decidable c] (h : Kept s t) (k : Kept s u) : Kept s (if c then t else u) := by
  split
  · exact h
  · exact k

theorem foldl_kept {α : Type} {f : State → α → State} (l : List α) (s : State) (h : ∀ t x, Kept t (f t x)) :
    Kept s (l.foldl f s) :=
  foldl_ind (fun t => Kept s t) (Kept.refl s) fun t x k => k.trans (h t x)

/-! ### Updates of one block -/

theorem kept_msv {m : Msv} (h : s.msv.Sound → m.Sound) : Kept s { s with msv := m } :=
  ⟨⟨rfl, rfl, rfl, id, id, id, id, id, id, id, id⟩, h⟩

theorem rest_msv {m : Msv} : Rest s { s with msv := m } := ⟨rfl, rfl, rfl, id, id, id, id, id, id, id, id⟩

theorem kept_stu {m : Stu} (h : s.stu.Sound → m.Sound) : Kept s { s with stu := m } :=
  ⟨⟨rfl, rfl, rfl, h, id, id, id, id, id, id, id⟩, id⟩

theorem kept_wmu {m : Wmu} (h : s.wmu.Sound → m.Sound) : Kept s { s with wmu := m } :=
  ⟨⟨rfl, rfl, rfl, id, h, id, id, id, id, id, id⟩, id⟩

theorem kept_pgs {m : Pgs} (h : s.pgs.Sound → m.Sound) : Kept s { s with pgs := m } :=
  ⟨⟨rfl, rfl, rfl, id, id, h, id, id, id, id, id⟩, id⟩

theorem kept_sqc {m : Sqc} (h : s.sqc.Sound → m.Sound) : Kept s { s with sqc := m } :=
  ⟨⟨rfl, rfl, rfl, id, id, id, h, id, id, id, id⟩, id⟩

theorem kept_tmu {m : Tmu} (h : s.tmu.Sound → m.Sound) : Kept s { s with tmu := m } :=
  ⟨⟨rfl, rfl, rfl, id, id, id, id, h, id, id, id⟩, id⟩

theorem kept_mot {m : Mot} (h : s.mot.Sound → m.Sound) : Kept s { s with mot := m } :=
  ⟨⟨rfl, rfl, rfl, id, id, id, id, id, h, id, id⟩, id⟩

theorem kept_fau {m : Fau} (h : s.fau.Sound → m.Sound) : Kept s { s with fau := m } :=
  ⟨⟨rfl, rfl, rfl, id, id, id, id, id, id, h, id⟩, id⟩

theorem kept_clock {c : Clock} : Kept s { s with clock := c } := ⟨⟨rfl, rfl, rfl, id, id, id, id, id, id, id, id⟩, id⟩

/-! ### Updates of one block after an operation -/

theorem Kept.on_msv {m : Msv} (h : Kept s t) (k : t.msv.Sound → m.Sound) : Kept s { t with msv := m } :=
  h.trans (kept_msv k)

theorem Kept.on_stu {m : Stu} (h : Kept s t) (k : t.stu.Sound → m.Sound) : Kept s { t with stu := m } :=
  h.trans (kept_stu k)

theorem Kept.on_wmu {m : Wmu} (h : Kept s t) (k : t.wmu.Sound → m.Sound) : Kept s { t with wmu := m } :=
  h.trans (kept_wmu k)

theorem Kept.on_pgs {m : Pgs} (h : Kept s t) (k : t.pgs.Sound → m.Sound) : Kept s { t with pgs := m } :=
  h.trans (kept_pgs k)

theorem Kept.on_sqc {m : Sqc} (h : Kept s t) (k : t.sqc.Sound → m.Sound) : Kept s { t with sqc := m } :=
  h.trans (kept_sqc k)

theorem Kept.on_tmu {m : Tmu} (h : Kept s t) (k : t.tmu.Sound → m.Sound) : Kept s { t with tmu := m } :=
  h.trans (kept_tmu k)

theorem Kept.on_mot {m : Mot} (h : Kept s t) (k : t.mot.Sound → m.Sound) : Kept s { t with mot := m } :=
  h.trans (kept_mot k)

theorem Kept.on_fau {m : Fau} (h : Kept s t) (k : t.fau.Sound → m.Sound) : Kept s { t with fau := m } :=
  h.trans (kept_fau k)

/-! ### Reports -/

theorem enqueue_kept (r : Report) (s : State) : Kept s (enqueue r s) := by
  unfold enqueue
  split
  · split
    · rename_i h
      refine ⟨⟨rfl, rfl, rfl, id, id, id, id, id, id, id, fun _ => ?_⟩, id⟩
      simp only [List.length_append, List.length_singleton]
      exact h
    · exact ⟨⟨rfl, rfl, rfl, id, id, id, id, id, id, id, id⟩, id⟩
  · exact Kept.refl s

theorem enqueueAfter_kept (r : Report) (s : State) : Kept s (enqueueAfter r s) :=
  ⟨⟨rfl, rfl, rfl, id, id, id, id, id, id, id, id⟩, id⟩

theorem flushTrailing_kept (s : State) : Kept s (flushTrailing s) := by
  unfold flushTrailing
  refine Kept.trans ?_ (foldl_kept _ _ fun t r => enqueue_kept r t)
  exact ⟨⟨rfl, rfl, rfl, id, id, id, id, id, id, id, id⟩, id⟩

theorem reportState_kept (v : StateView) (s : State) : Kept s (reportState v s) := by
  unfold reportState
  split
  · exact (enqueue_kept _ _).trans (flushTrailing_kept _)
  · exact flushTrailing_kept s

theorem tapeReport_kept (c : TapeCause) (p : Option Nat) (s : State) : Kept s (tapeReport c p s) := enqueue_kept _ _

theorem reportReel_kept (b : ReelState) (s : State) : Kept s (reportReel b s) := by
  unfold reportReel
  split
  · exact Kept.refl s
  · exact tapeReport_kept _ _ _

theorem panelReport_kept (m : RunMode) (e : PanelEnding) (s : State) : Kept s (panelReport m e s) := enqueue_kept _ _

/-! ### The trip and the dwell reason set -/

theorem raiseTrip_kept (s : State) : Kept s (raiseTrip s) :=
  ⟨⟨rfl, rfl, rfl, fun h => ⟨h.1, h.2, h.3, h.4, h.5⟩, id, id, id, id, id, id, id⟩, fun h => ⟨fun _ => rfl, h.2, h.3, h.4⟩⟩

theorem dropTrip_kept (c : Bool) (s : State) : Kept s (dropTrip c s) := by
  unfold dropTrip
  split
  · exact ⟨⟨rfl, rfl, rfl, fun h => ⟨h.1, h.2, h.3, h.4, h.5⟩, id, id, id, id, id, id, id⟩, fun h => ⟨nofun, h.2, h.3, h.4⟩⟩
  · exact Kept.refl s

theorem setDwell_kept (f : DwellSet → DwellSet) (s : State) : Kept s (setDwell f s) :=
  kept_msv fun h => ⟨h.1, h.2, h.3, h.4⟩

theorem raiseIfReady_kept (s : State) : Kept s (raiseIfReady s) := by
  unfold raiseIfReady
  split
  · rename_i h
    simp only [Bool.and_eq_true, inDwell, beq_iff_eq] at h
    refine Kept.trans ?_ (raiseTrip_kept _)
    refine kept_msv fun k => ⟨k.1, ?_, nofun, ?_⟩
    · rw [k.2, h.1.1]; rfl
    · rw [k.4, h.1.1]; rfl
  · exact Kept.refl s

theorem addPendingFault_kept (s : State) : Kept s (addPendingFault s) := by
  unfold addPendingFault
  split
  · exact kept_msv fun h => ⟨h.1, h.2, h.3, h.4⟩
  · exact Kept.refl s

theorem event_kept {f : State → State} (h : ∀ s, Kept s (f s)) (s : State) : Kept s (event f s) :=
  (h s).trans (reportState_kept _ _)

theorem eventRun_kept {f : State → State} (h : ∀ s, Kept s (f s)) (s : State) : Kept s (eventRun f s) :=
  ((h s).trans (raiseIfReady_kept _)).trans (reportState_kept _ _)

/-! ### Faults of class W and D -/

theorem captureAfter_sound (r : FaultRecord) {c : Capture} (h1 : c.later ≤ 255)
    (h2 : c.locked = true → c.content.isSome = true) :
    (captureAfter r c).later ≤ 255 ∧ ((captureAfter r c).locked = true → (captureAfter r c).content.isSome = true) := by
  unfold captureAfter
  split
  · exact ⟨h1, h2⟩
  · split
    · rename_i hl
      refine ⟨Nat.min_le_right _ _, fun _ => ?_⟩
      dsimp only
      split
      · rfl
      · exact h2 hl
    · exact ⟨Nat.zero_le _, fun _ => rfl⟩

theorem takeFault_kept (r : FaultRecord) (s : State) : Kept s (takeFault r s) := by
  refine Kept.trans (kept_fau fun h => ?_) (enqueue_kept _ _)
  have := captureAfter_sound r h.later h.content
  exact ⟨h.warnings, this.1, this.2, h.flash⟩

theorem classW_kept (s : State) : Kept s (classW s) :=
  kept_fau fun h => ⟨Nat.min_le_right _ _, h.later, h.content, h.flash⟩

theorem classD_kept (s : State) : Kept s (classD s) := by
  unfold classD
  split
  · exact Kept.refl s
  · split
    · exact setDwell_kept _ s
    · exact kept_msv fun h => ⟨h.1, h.2, h.3, h.4⟩

theorem raiseW_kept (k : FaultKind) (i : Option Item) (p : Option Nat) (d : Int) (s : State) : Kept s (raiseW k i p d s) :=
  (takeFault_kept _ _).trans (classW_kept _)

theorem raiseD_kept (k : FaultKind) (i : Option Item) (p : Option Nat) (d : Int) (s : State) : Kept s (raiseD k i p d s) :=
  (takeFault_kept _ _).trans (classD_kept _)

/-! ### Items -/

theorem setItemRec_kept (i : Item) (r : ItemRecord) (s : State) : Kept s (setItemRec i r s) :=
  kept_pgs fun h => ⟨h.1, h.2, wf_write h.3⟩

theorem setItemState_kept (i : Item) (st : ItemState) (s : State) : Kept s (setItemState i st s) := setItemRec_kept _ _ _

theorem abandonItem_kept (i : Item) (w : Reason) (s : State) : Kept s (abandonItem i w s) := setItemRec_kept _ _ _

theorem placeReturned_kept (i : Item) (s : State) : Kept s (placeReturned i s) := by
  unfold placeReturned
  split
  · rename_i h
    simp only [Bool.and_eq_true, decide_eq_true_eq] at h
    refine (setItemState_kept i .redo s).trans (kept_sqc fun k => ⟨k.1, k.2, ?_, k.4, k.5, k.6⟩)
    simp only [List.length_append, List.length_singleton]
    exact h.2
  · exact setItemState_kept _ _ _

theorem returnTried_kept (i : Item) (s : State) : Kept s (returnTried i s) := by
  unfold returnTried
  dsimp only
  split
  · exact (setItemRec_kept _ _ _).trans (abandonItem_kept _ _ _)
  · exact (setItemRec_kept _ _ _).trans (placeReturned_kept _ _)

theorem raiseAbandoned_kept (i : Item) (s : State) : Kept s (raiseAbandoned i s) := raiseW_kept _ _ _ _ _

theorem returnWithTry_kept (i : Item) (s : State) : Kept s (returnWithTry i s) := by
  unfold returnWithTry
  split
  · exact (returnTried_kept _ _).trans (raiseAbandoned_kept _ _)
  · exact returnTried_kept _ _

theorem pendAll_kept (l : List Item) (s : State) : Kept s (pendAll l s) := foldl_kept _ _ fun t i => setItemState_kept i _ t

/-! ### Channels, windows, the head load -/

theorem setChannelRec_kept (i : ChannelNo) (c : Channel) (s : State) : Kept s (setChannelRec i c s) :=
  kept_stu fun h => ⟨h.1, h.2, h.3, h.4, h.5⟩

theorem mapChannels_kept (f : ChannelNo → Channel → Channel) (s : State) : Kept s (mapChannels f s) :=
  foldl_kept _ _ fun t i => setChannelRec_kept i _ t

theorem commandOff_kept (i : ChannelNo) (s : State) : Kept s (commandOff i s) := setChannelRec_kept _ _ _

theorem dropHeadChannels_kept (s : State) : Kept s (dropHeadChannels s) := by
  unfold dropHeadChannels
  split
  · exact Kept.refl s
  · exact mapChannels_kept _ _

theorem setHead_kept (h : HeadLoad) (s : State) : Kept s (setHead h s) := by
  refine Kept.trans ?_ (dropHeadChannels_kept _)
  exact kept_wmu fun k => ⟨k.1, k.2, k.3⟩

theorem setWindowRec_kept (n : Fin 12) (w : Window) (s : State) (h : s.wmu.Sound → w.history.length ≤ 16) :
    Kept s (setWindowRec n w s) :=
  kept_wmu fun k => ⟨k.1, fun m => by
    by_cases e : n.val = m.val
    · have : n = m := Fin.ext e
      subst this
      simpa using h k
    · simpa [Vector.getElem_set, e] using k.2 m, k.3⟩

theorem mapWindows_kept (f : Window → Window) (s : State) (h : ∀ w, w.history.length ≤ 16 → (f w).history.length ≤ 16) :
    Kept s (mapWindows f s) :=
  kept_wmu fun k => ⟨k.1, fun m => by simpa using h _ (k.2 m), k.3⟩

theorem Window.shut_history (w : Window) : w.shut.history = w.history := by
  unfold Window.shut
  split <;> rfl

theorem Window.adopt_history (w : Window) (h : w.history.length ≤ 16) : w.adopt.history.length ≤ 16 := by
  unfold Window.adopt
  split
  · exact h
  · exact Nat.zero_le _

/-! ### Leaving RUNNING and STOPPING -/

theorem leaveRun_rest (m : MachineState) (s : State) : Rest s (leaveRun m s) := by
  have h : Rest s (mapChannels (fun i c => (c.quiet i).adopt i) (mapWindows (fun w => w.shut.adopt) s)) :=
    ((mapWindows_kept (fun w => w.shut.adopt) s fun w h =>
      Window.adopt_history _ (by rw [Window.shut_history]; exact h)).trans (mapChannels_kept _ _)).toRest
  refine h.trans ?_
  exact ⟨rfl, rfl, rfl, id, id, id, fun k => ⟨k.1, k.2, k.3, k.4, k.5, k.6⟩, fun k => ⟨k.1, k.2, k.3, k.4⟩,
    fun k => ⟨k.1, k.2⟩, id, id⟩

theorem leaveRun_msv (m : MachineState) (s : State) : (leaveRun m s).msv =
    { s.msv with state := m, finishing := false, run := none, dwell := { DwellSet.none with fault := s.msv.dwell.fault } } := by
  simp [leaveRun]

/-- A state that is neither a run nor HOMING. -/
abbrev still (m : MachineState) : Prop := m = .unhomed ∨ m = .stopped ∨ m = .halted ∨ m = .service

theorem inRun_iff (s : State) : inRun s = (s.msv.state == .running .cycling || s.msv.state == .running .dwell ||
    s.msv.state == .stopping) := by
  unfold inRun isRunning
  cases s.msv.state with
  | running sub => cases sub <;> rfl
  | _ => rfl

theorem home_none {m : Msv} (h : m.Sound) (hs : m.state ≠ .homing) : m.home = none := by
  have := h.home
  rw [beq_eq_false_iff_ne.mpr hs] at this
  simpa using this

theorem leaveRun_kept (m : MachineState) (s : State) (hm : still m) (hr : inRun s = true) : Kept s (leaveRun m s) := by
  refine ⟨leaveRun_rest m s, fun h => ?_⟩
  rw [leaveRun_msv]
  have hh : s.msv.home = none := home_none h fun e => by
    rw [inRun_iff, e] at hr
    exact absurd hr (by decide)
  refine ⟨h.brake, ?_, nofun, ?_⟩
  · rcases hm with rfl | rfl | rfl | rfl <;> rfl
  · rcases hm with rfl | rfl | rfl | rfl <;> simp [hh]

theorem enterState_rest (m : MachineState) (s : State) : Rest s (enterState m s) := by
  unfold enterState
  split
  · exact leaveRun_rest m s
  · exact rest_msv.trans (mapChannels_kept _ _).toRest

theorem enterState_msv (m : MachineState) (s : State) : (enterState m s).msv =
    { s.msv with
      state := m, finishing := false, run := if inRun s then none else s.msv.run
      dwell := if inRun s then { DwellSet.none with fault := s.msv.dwell.fault } else s.msv.dwell } := by
  unfold enterState
  split
  · simp [leaveRun_msv]
  · simp

/-- Entering a state that is neither a run nor HOMING, with no HOME in flight, whatever the state was. -/
theorem enterState_sound (m : MachineState) (s : State) (hm : still m) (h1 : s.msv.trip = true → s.msv.brake = false)
    (h2 : s.msv.run.isSome = inRun s) (h3 : s.msv.home = none) : (enterState m s).msv.Sound := by
  rw [enterState_msv]
  refine ⟨h1, ?_, nofun, ?_⟩
  · cases hr : inRun s
    · simp only [Bool.false_eq_true, if_false]
      rw [h2, hr]
      rcases hm with rfl | rfl | rfl | rfl <;> rfl
    · rcases hm with rfl | rfl | rfl | rfl <;> rfl
  · rcases hm with rfl | rfl | rfl | rfl <;> simp [h3]

theorem enterState_kept (m : MachineState) (s : State) (hm : still m) (hs : s.msv.state ≠ .homing) :
    Kept s (enterState m s) := by
  refine ⟨enterState_rest m s, fun h => enterState_sound m s hm h.brake (by rw [inRun_iff]; exact h.run) (home_none h hs)⟩

theorem endRun_kept (s : State) : Kept s (endRun s) := by
  unfold endRun
  split
  · rename_i h
    refine kept_msv fun k => ⟨k.1, ?_, fun _ => .inr rfl, ?_⟩
    · rw [k.2, h]; rfl
    · rw [k.4, h]; rfl
  · rename_i h
    exact leaveRun_kept _ _ (.inr (.inl rfl)) (by rw [inRun_iff, h]; rfl)
  · exact Kept.refl s

end Sys2Proof.Machine
end

