-- ==== Sys2Proof/Laws/KeepsPanel.lean ====
section
/-! SUPPORT. What assignment, panel start and panel end, and the actions of a fault of any class keep. -/

namespace Sys2Proof.Machine

/-! ### Assignment and starvation -/

theorem leaveRedo_kept (i : Item) (s : State) : Kept s (leaveRedo i s) :=
  kept_sqc fun h => ⟨h.1, h.2, Nat.le_trans (List.length_filter_le _ _) h.3, h.4, h.5, h.6⟩

theorem abandonRange_kept (i : Item) (p : Option Nat) (s : State) : Kept s (abandonRange i p s) :=
  ((abandonItem_kept _ _ _).trans (leaveRedo_kept _ _)).trans (raiseW_kept _ _ _ _ _)

theorem assign_kept (s : State) : Kept s (assign s).1 := by
  unfold assign
  split
  · exact Kept.refl s
  · have h := foldl_kept (assignSearch s).abandoned s fun t i => abandonRange_kept i (some 1) t
    dsimp only
    split
    · exact h
    · exact (h.trans (setItemState_kept _ _ _)).trans (leaveRedo_kept _ _)

theorem judgeStarved_kept (s : State) : Kept s (judgeStarved s) := by
  unfold judgeStarved
  split
  · exact setDwell_kept _ s
  · exact Kept.refl s

/-! ### Panel start -/

theorem imageItems_sorted (image : Fin 4) (n : Nat) : (imageItems image n).Pairwise fun i j => i.key < j.key := by
  unfold imageItems
  rw [List.pairwise_map]
  refine List.Pairwise.imp_of_mem ?_ (List.pairwise_lt_range (n := min n 1024))
  intro a b ha hb h
  simp only [List.mem_range] at ha hb
  simp only [Item.key, Fin.ofNat]
  rw [Nat.mod_eq_of_lt (by omega), Nat.mod_eq_of_lt (by omega)]
  omega

theorem imageItems_image (image : Fin 4) (n : Nat) (i : Item) (h : i ∈ imageItems image n) : i.image = image := by
  simp only [imageItems, List.mem_map] at h
  obtain ⟨k, -, rfl⟩ := h
  rfl

/-- The work list is in work-list order: its keys rise. -/
theorem workList_sorted (s : State) : (workList s).Pairwise fun i j => i.key < j.key := by
  unfold workList
  rw [List.pairwise_flatMap]
  constructor
  · intro image _
    split
    · exact imageItems_sorted _ _
    · exact List.Pairwise.nil
  · refine List.Pairwise.imp (R := fun a b : Fin 4 => a < b) ?_ (by decide)
    intro a b hab i hi j hj
    split at hi
    · split at hj
      · have h1 := imageItems_image _ _ _ hi
        have h2 := imageItems_image _ _ _ hj
        have h3 := i.step.isLt
        have h4 := j.step.isLt
        simp only [Item.key, h1, h2]
        have : a.val < b.val := hab
        omega
      · cases hj
    · cases hi

theorem wfFrom_filterMap (f : Item → Option (Nat × ItemRecord)) (hf : ∀ i p, f i = some p → p.1 = i.key ∧ p.2 ≠ .fresh)
    (l : List Item) (lo : Nat) (hs : l.Pairwise fun i j => i.key < j.key) (hl : ∀ i ∈ l, lo ≤ i.key) :
    Table.wfFrom ItemRecord.fresh lo (l.filterMap f) = true := by
  induction l generalizing lo with
  | nil => rfl
  | cons i l ih =>
    rw [List.pairwise_cons] at hs
    rw [List.filterMap_cons]
    cases h : f i with
    | none => exact ih lo hs.2 fun j hj => hl j (List.mem_cons_of_mem _ hj)
    | some p =>
      obtain ⟨k, r⟩ := p
      obtain ⟨h1, h2⟩ := hf i _ h
      dsimp only at h1 h2
      simp only [Table.wfFrom, Bool.and_eq_true, decide_eq_true_eq]
      refine ⟨⟨?_, h2⟩, ih (k + 1) hs.2 fun j hj => ?_⟩
      · rw [h1]; exact hl i List.mem_cons_self
      · rw [h1]; exact hs.1 j hj

theorem startItems_wf (s : State) : Table.wf ItemRecord.fresh (startItems s) = true := by
  refine wfFrom_filterMap _ ?_ _ 0 (workList_sorted s) fun _ _ => Nat.zero_le _
  intro i p h
  split at h
  · cases h; exact ⟨rfl, nofun⟩
  · cases h

theorem adoptSetup_kept (s : State) : Kept s (adoptSetup s) := by
  unfold adoptSetup
  split
  · exact Kept.refl s
  · rename_i h
    exact kept_pgs fun k => ⟨k.2 _ h, nofun, k.3⟩

theorem openPanel_kept (m : RunMode) (s : State) : Kept s (openPanel m s) := by
  unfold openPanel
  dsimp only
  refine Kept.trans ?_ (setDwell_kept _ _)
  refine (adoptSetup_kept s).trans ?_
  exact kept_pgs fun k => ⟨k.1, k.2, startItems_wf _⟩

/-! ### Panel end -/

theorem appendEntry_kept (e : TapeEntry) (s : State) : Kept s (appendEntry e s) := by
  unfold appendEntry
  split
  · rename_i h
    exact kept_tmu fun k => ⟨wf_write k.1, h, k.3, k.4⟩
  · exact Kept.refl s

theorem pulseGap_kept (t : Bool) (s : State) : Kept s (pulseGap t s) := by
  unfold pulseGap
  split
  · exact kept_tmu fun k => ⟨k.1, k.2, k.3, k.4⟩
  · exact kept_tmu fun k => ⟨k.1, k.2, k.3, k.4⟩

theorem passEndAppend_kept (s : State) : Kept s (passEndAppend s) := by
  unfold passEndAppend
  dsimp only
  refine Kept.trans ?_ (tapeReport_kept _ _ _)
  have h := (appendEntry_kept .panelEnd s).trans (appendEntry_kept .blank _)
  have h2 := kept_ite (c := (appendEntry .blank (appendEntry .panelEnd s)).tmu.mapLength < s.tmu.mapLength + 2)
    (h.trans (raiseD_kept .tapeFull none none 4096 _)) h
  exact kept_ite h2 (h2.trans (pulseGap_kept _ _))

theorem pulseBoard_kept (s : State) : Kept s (pulseBoard s) := by
  unfold pulseBoard
  split
  · exact Kept.refl s
  · exact kept_pgs fun k => ⟨k.1, k.2, k.3⟩

theorem closePanel_kept (m : RunMode) (e : PanelEnding) (s : State) : Kept s (closePanel m e s) := by
  unfold closePanel
  dsimp only
  refine Kept.trans (t := if hasBoard m = true then pulseBoard (panelReport m e s) else panelReport m e s) ?_
    (kept_pgs fun k => ⟨k.1, k.2, k.3⟩)
  split
  · exact (panelReport_kept _ _ _).trans (pulseBoard_kept _)
  · exact panelReport_kept _ _ _

theorem countPanel_kept (s : State) : Kept s (countPanel s).1 := by
  unfold countPanel
  split
  · exact Kept.refl s
  · rename_i r hr
    split
    · exact Kept.refl s
    · have h : Kept s { s with msv := { s.msv with run := some { r with remaining := r.remaining - 1 } } } :=
        kept_msv fun k => ⟨k.1, by rw [← k.2, hr]; rfl, k.3, k.4⟩
      dsimp only
      split
      · exact h.trans (endRun_kept _)
      · exact h

theorem panelEndWith_kept (f : State → State) (hf : ∀ s, Kept s (f s)) (e : PanelEnding) (s : State) :
    Kept s (panelEndWith f e s) := by
  unfold panelEndWith
  split
  · exact Kept.refl s
  · rename_i m _
    dsimp only
    have h1 : Kept s (if isRunning (closePanel m e s) then countPanel (closePanel m e s) else (closePanel m e s, false)).1 := by
      split
      · exact (closePanel_kept _ _ _).trans (countPanel_kept _)
      · exact closePanel_kept _ _ _
    generalize (if isRunning (closePanel m e s) then countPanel (closePanel m e s) else (closePanel m e s, false)) = c at h1
    have h2 : Kept s (if m = .tapeOut ∧ e = .complete then passEndAppend c.1 else c.1) := by
      split
      · exact h1.trans (passEndAppend_kept _)
      · exact h1
    split
    · split
      · exact h2.trans (setDwell_kept _ _)
      · exact h2.trans (hf _)
    · exact h2

theorem endEmpty_kept (s : State) : Kept s (endEmpty s) := by
  refine Kept.trans ?_ (panelEndWith_kept id (fun s => Kept.refl s) _ _)
  exact kept_msv fun k => ⟨k.1, by rw [← k.2]; cases s.msv.run <;> rfl, k.3, k.4⟩

theorem startPanel_kept (m : RunMode) (s : State) : Kept s (startPanel m s) := by
  unfold startPanel
  dsimp only
  split
  · exact (openPanel_kept _ _).trans (judgeStarved_kept _)
  · exact (openPanel_kept _ _).trans (endEmpty_kept _)

theorem panelEnd_kept (e : PanelEnding) (s : State) : Kept s (panelEnd e s) :=
  panelEndWith_kept _ (startPanel_kept _) _ _

theorem panelTest_kept (s : State) : Kept s (panelTest s) := by
  unfold panelTest
  split
  · exact panelEnd_kept _ _
  · exact Kept.refl s

theorem tryStartPanel_kept (s : State) : Kept s (tryStartPanel s) := by
  unfold tryStartPanel
  split
  · split
    · exact startPanel_kept _ _
    · exact Kept.refl s
  · exact Kept.refl s

/-! ### Axes and service operations -/

theorem setAxisRec_kept (a : Axis) (r : AxisRec) (s : State) (h : s.mot.Sound → r.Sound a) : Kept s (setAxisRec a r s) :=
  kept_mot fun k => ⟨fun b => by
    by_cases e : b = a
    · subst e; cases b <;> exact h k
    · have : (s.mot.setAxis a r).axis b = s.mot.axis b := by cases a <;> cases b <;> first | rfl | exact absurd rfl e
      rw [this]; exact k.1 b, fun a' n k' w b c f e he => k.2 a' n k' w b c f e (by cases a <;> exact he)⟩

theorem mapAxes_kept (f : AxisRec → AxisRec) (s : State) (h : ∀ a r, r.Sound a → (f r).Sound a) : Kept s (mapAxes f s) :=
  kept_mot fun k => ⟨fun a => by cases a <;> exact h _ _ (k.1 _), k.2⟩

theorem positionHeld_table (a : TableAxis) (p : Int) : positionHeld (tableAxis a) p = positionHeld .x p := by
  cases a <;> rfl

/-- The positions that an operation has saved are ones that an axis can hold. -/
def savedHeld (op : ServiceOp) : Prop :=
  ∀ a n k w b c f e, op = .loop a n k w b c f e → positionHeld .x c ∧ positionHeld .x f

theorem savedHeld_of (s : State) (op : ServiceOp) (h : s.mot.Sound) (e : s.mot.service = some op) : savedHeld op :=
  fun a n k w b c f e' he => h.saved a n k w b c f e' (by rw [e, he])

theorem restoreLoop_kept (op : ServiceOp) (s : State) (h : s.mot.Sound → savedHeld op) : Kept s (restoreLoop op s) := by
  unfold restoreLoop
  split
  · rename_i a _ _ _ _ _ _
    refine setAxisRec_kept _ _ _ fun k => ?_
    obtain ⟨h1, h2⟩ := h k _ _ _ _ _ _ _ _ rfl
    have r := k.1 (tableAxis a)
    exact ⟨r.1, r.2, r.3, r.4, r.5, by rw [positionHeld_table]; exact h1, by rw [positionHeld_table]; exact h2⟩
  · exact Kept.refl s

theorem finishService_kept (op : ServiceOp) (r : DoneResult) (k : Option FaultKind) (s : State)
    (h : s.mot.Sound → savedHeld op) : Kept s (finishService op r k s) := by
  unfold finishService
  dsimp only
  refine Kept.trans (Kept.trans (enqueue_kept (.testDone (testDoneOf op r k s)) s)
    (restoreLoop_kept op _ (by simpa using h))) ?_
  exact kept_mot fun k => ⟨k.1, nofun⟩

theorem stopSearch_sound {a : Axis} {r : AxisRec} (h : r.Sound a) : r.stopSearch.Sound a := by
  unfold AxisRec.stopSearch
  dsimp only
  split <;> exact ⟨h.1, h.2, h.3, h.4, h.5, h.6, h.7⟩

theorem stopJog_sound {a : Axis} {r : AxisRec} (h : r.Sound a) : r.stopJog.Sound a := by
  unfold AxisRec.stopJog
  split
  · exact ⟨h.1, h.2, h.3, h.4, h.5, h.6, h.7⟩
  · exact h

theorem cut_sound {a : Axis} {r : AxisRec} (h : r.Sound a) : r.cut.Sound a := ⟨h.1, h.2, h.3, h.4, h.5, h.6, h.7⟩

theorem stopService_kept (k : FaultKind) (s : State) : Kept s (stopService k s) := by
  unfold stopService
  split
  · exact kept_mot fun h => ⟨h.1, nofun⟩
  · rename_i hs
    refine kept_mot fun h => ⟨h.1, fun a n k w b c f e he => ?_⟩
    cases he
    exact h.saved _ _ _ _ _ _ _ _ hs
  · exact finishService_kept _ _ _ _ fun _ => nofun
  · exact Kept.refl s

theorem stopMotion_kept (k : FaultKind) (s : State) : Kept s (stopMotion k s) := by
  unfold stopMotion
  refine Kept.trans ?_ (stopService_kept _ _)
  refine Kept.trans ?_ (mapAxes_kept _ _ fun a r h => stopJog_sound (stopSearch_sound h))
  exact kept_mot fun h => ⟨fun a => by cases a <;> exact h.1 _, h.2⟩

theorem cutMotion_kept (s : State) : Kept s (cutMotion s) := by
  unfold cutMotion
  refine Kept.trans ?_ (mapAxes_kept _ _ fun a r h => cut_sound h)
  exact kept_mot fun h => ⟨fun a => by cases a <;> exact h.1 _, h.2⟩

theorem haltMotion_kept (k : FaultKind) (s : State) : Kept s (haltMotion k s) := by
  unfold haltMotion
  dsimp only
  split
  · rename_i op h
    exact (cutMotion_kept s).trans (finishService_kept _ _ _ _ fun k => savedHeld_of _ _ k h)
  · exact cutMotion_kept s

/-! ### The class S and class H actions -/

theorem haltSupervisor_kept (k : FaultKind) (s : State) : Kept s (haltSupervisor k s) := by
  unfold haltSupervisor
  dsimp only
  have h1 : Kept s (if (dropTrip false s).msv.home.isSome then enqueue (.homeDone .failed (some k)) (dropTrip false s)
      else dropTrip false s) := by
    split
    · exact (dropTrip_kept _ _).trans (enqueue_kept _ _)
    · exact dropTrip_kept _ _
  have h2 : (if (dropTrip false s).msv.home.isSome then enqueue (.homeDone .failed (some k)) (dropTrip false s)
      else dropTrip false s).msv.trip = false := by
    have : (dropTrip false s).msv.trip = false := by
      unfold dropTrip
      split
      · rfl
      · rename_i h; simpa using h
    split <;> simpa using this
  generalize (if (dropTrip false s).msv.home.isSome then enqueue (.homeDone .failed (some k)) (dropTrip false s)
      else dropTrip false s) = t at h1 h2
  refine ⟨(h1.toRest.trans rest_msv).trans (enterState_rest _ _), fun h => ?_⟩
  refine enterState_sound _ _ (.inr (.inr (.inl rfl))) (fun e => ?_) ?_ rfl
  · dsimp only at e; rw [h2] at e; cases e
  · have := (h1.msv h).run
    rw [inRun_iff]; exact this

theorem haltShaft_kept (s : State) : Kept s (haltShaft s) := by
  unfold haltShaft
  exact (mapChannels_kept _ s).on_stu fun h => ⟨h.1, h.2, h.3, h.4, h.5⟩

theorem itemLeaves_kept (s : State) : Kept s (itemLeaves s) := by
  unfold itemLeaves
  split
  · split
    · exact (setItemState_kept _ _ _).trans (setHead_kept _ _)
    · exact (placeReturned_kept _ _).trans (setHead_kept _ _)
  · exact Kept.refl s

theorem endSingle_kept (s : State) : Kept s (endSingle s) := kept_msv fun h => ⟨h.1, h.2, h.3, h.4⟩

theorem haltAction_kept (hard : Bool) (k : FaultKind) (s : State) : Kept s (haltAction hard k s) := by
  unfold haltAction
  dsimp only
  refine Kept.trans ?_ (panelTest_kept _)
  refine Kept.on_fau ?_ fun h => ⟨h.1, h.2, h.3, h.4⟩
  refine Kept.trans ?_ (endSingle_kept _)
  have h := ((haltSupervisor_kept k s).trans (haltShaft_kept _)).trans (itemLeaves_kept _)
  split
  · exact h.trans (haltMotion_kept _ _)
  · exact h.trans (stopMotion_kept _ _)

theorem raiseAt_kept (k : FaultKind) (c : FaultClass) (i : Option Item) (p : Option Nat) (a : Angle) (d : Int) (s : State) :
    Kept s (raiseAt k c i p a d s) := by
  unfold raiseAt
  dsimp only
  have h := takeFault_kept (faultRecord k c i p a d s) s
  split
  · exact h.trans (classW_kept _)
  · exact h.trans (classD_kept _)
  · exact h.trans (haltAction_kept _ _ _)
  · exact h.trans (haltAction_kept _ _ _)

theorem raiseFault_kept (k : FaultKind) (c : FaultClass) (i : Option Item) (p : Option Nat) (d : Int) (s : State) :
    Kept s (raiseFault k c i p d s) := raiseAt_kept _ _ _ _ _ _ _

end Sys2Proof.Machine
end

