-- ==== Sys2Proof/Laws/KeepsMotion.lean ====
section
/-! SUPPORT. What the motions keep: pulses, searches, settle ends, the end of HOME, move plans. -/

namespace Sys2Proof.Machine

variable {s t : State}

/-- A change of the Motion Unit that leaves its axes and its service operation alone. -/
theorem mot_same {m n : Mot} (h : m.Sound) (hx : n.x = m.x) (hy : n.y = m.y) (hs : n.span = m.span) (hr : n.rot = m.rot)
    (ho : n.service = m.service) : n.Sound where
  axis a := by
    have := h.axis a
    cases a
    · rw [show n.axis .x = m.axis .x from hx]; exact this
    · rw [show n.axis .y = m.axis .y from hy]; exact this
    · rw [show n.axis .span = m.axis .span from hs]; exact this
    · rw [show n.axis .rot = m.axis .rot from hr]; exact this
  saved := by rw [ho]; exact h.saved

/-! ### Axes -/

theorem clampInt_range (lo hi n : Int) (h : lo ≤ hi) : lo ≤ clampInt lo hi n ∧ clampInt lo hi n ≤ hi := by
  unfold clampInt
  split
  · omega
  · split <;> omega

theorem movePosition_held (a : Axis) (p n : Int) : positionHeld a (movePosition a p n) := by
  cases a
  · exact clampInt_range _ _ _ (by decide)
  · exact clampInt_range _ _ _ (by decide)
  · exact clampInt_range _ _ _ (by decide)
  · exact ⟨Int.emod_nonneg _ (by decide), Int.emod_lt_of_pos _ (by decide)⟩

theorem adoptRates_sound {a : Axis} {r : AxisRec} (h : r.Sound a) : r.adoptRates.Sound a := by
  unfold AxisRec.adoptRates
  split
  · exact ⟨h.2, h.2, h.3, h.4, h.5, h.6, h.7⟩
  · exact h

theorem aim_sound {a : Axis} {r : AxisRec} {p : Bool} (h : r.Sound a) : (r.aim p).Sound a :=
  ⟨h.1, h.2, h.3, h.4, h.5, h.6, h.7⟩

theorem take_sound {a : Axis} {r : AxisRec} {d : Drive} {p : Bool} (h : r.Sound a) : (r.take d p).Sound a :=
  ⟨h.1, h.2, h.3, h.4, h.5, h.6, h.7⟩

theorem settleOver_sound {a : Axis} {r : AxisRec} (h : r.Sound a) : r.settleOver.Sound a := by
  unfold AxisRec.settleOver
  (repeat' split) <;> exact ⟨h.1, h.2, h.3, h.4, h.5, h.6, h.7⟩

theorem internalLoop_table {a : Axis} {s : State} (h : internalLoop a s = true) : ∃ b, a = tableAxis b := by
  unfold internalLoop at h
  split at h
  · exact ⟨_, (beq_iff_eq.mp h).symm⟩
  · cases h

theorem issuePulses_kept (a : Axis) (n : Nat) (s : State) : Kept s (issuePulses a n s) := by
  unfold issuePulses
  dsimp only
  refine setAxisRec_kept _ _ _ fun h => ?_
  have r := h.axis a
  refine ⟨r.1, r.2, r.3, r.4, r.5, movePosition_held _ _ _, ?_⟩
  dsimp only
  split
  · rename_i hl
    obtain ⟨b, rfl⟩ := internalLoop_table hl
    rw [positionHeld_table]
    exact movePosition_held .x _ _
  · exact r.7

/-! ### Searches -/

theorem startSearch_kept (a : Axis) (s : State) : Kept s (startSearch a s) := by
  refine setAxisRec_kept _ _ _ fun h => ?_
  have r := adoptRates_sound (h.axis a)
  exact ⟨r.1, r.2, r.3, r.4, r.5, r.6, r.7⟩

theorem startSearches_kept (s : State) : Kept s (startSearches s) := by
  unfold startSearches
  split
  · dsimp only
    have h := kept_ite (c := waitsForSearch .x s = true) (startSearch_kept .x s) (Kept.refl s)
    have h := h.trans (kept_ite (c := waitsForSearch .y (if waitsForSearch .x s = true then startSearch .x s else s) = true)
      (startSearch_kept .y _) (Kept.refl _))
    refine kept_ite (kept_ite ?_ (kept_ite ?_ h)) h
    · refine Kept.trans ?_ (startSearch_kept .span _)
      exact h.on_mot fun k => mot_same k rfl rfl rfl rfl rfl
    · refine Kept.trans ?_ (startSearch_kept .rot _)
      exact h.on_mot fun k => mot_same k rfl rfl rfl rfl rfl
  · exact Kept.refl s

theorem searchOver_kept (a : Axis) (s : State) : Kept s (searchOver a s) := by
  unfold searchOver
  split
  · exact kept_mot fun k => mot_same k rfl rfl rfl rfl rfl
  · exact kept_mot fun k => mot_same k rfl rfl rfl rfl rfl
  · exact Kept.refl s

theorem searchEnds_kept (a : Axis) (s : State) : Kept s (searchEnds a s) := by
  refine Kept.trans ?_ (searchOver_kept _ _)
  refine setAxisRec_kept _ _ _ fun h => ?_
  have r := h.axis a
  exact ⟨r.1, r.2, r.3, r.4, r.5, r.6, r.7⟩

theorem searchFails_kept (a : Axis) (d : Int) (s : State) : Kept s (searchFails a d s) :=
  (searchEnds_kept _ _).trans (raiseFault_kept _ _ _ _ _ _)

/-! ### The end of HOME -/

/-- Entering STOPPED or UNHOMED as a HOME ends, the brake held released while the trip is on. -/
theorem endHome_kept (m : MachineState) (sr : Option SingleRev) (b : Bool) (s : State) (hm : still m)
    (hb : s.msv.Sound → s.msv.trip = true → b = false) :
    Kept s (enterState m { s with msv := { s.msv with home := none, single := sr, brake := b } }) :=
  ⟨rest_msv.trans (enterState_rest _ _), fun h =>
    enterState_sound _ _ hm (hb h) (by rw [inRun_iff]; exact h.run) rfl⟩

theorem homeSuccess_kept (s : State) : Kept s (homeSuccess s) :=
  (endHome_kept .stopped s.msv.single s.msv.brake s (.inr (.inl rfl)) fun h => h.brake).trans (enqueueAfter_kept _ _)

theorem shaftPhase_kept (s : State) : Kept s (shaftPhase s) := by
  unfold shaftPhase
  refine kept_ite (kept_ite ?_ (homeSuccess_kept s)) (Kept.refl s)
  refine Kept.trans ?_ (raiseTrip_kept _)
  exact kept_msv fun h => ⟨h.1, h.2, h.3, h.4⟩

theorem activitiesOver_kept (s : State) : Kept s (activitiesOver s) := by
  unfold activitiesOver
  split
  · rename_i h
    refine (endHome_kept .unhomed none true s (.inl rfl) fun _ ht => ?_).trans (enqueueAfter_kept _ _)
    simp [ht] at h
  · exact Kept.refl s

theorem homeProgress_kept (s : State) : Kept s (homeProgress s) := (shaftPhase_kept _).trans (activitiesOver_kept _)

/-! ### Plans in motion -/

theorem startPlan_kept (p : Plan) (s : State) : Kept s (startPlan p s) := by
  unfold startPlan
  dsimp only
  refine Kept.on_mot (foldl_kept _ _ fun t l => setAxisRec_kept _ _ _ fun h => take_sound (h.axis _)) fun k => ?_
  exact mot_same k rfl rfl rfl rfl rfl

theorem startHeld_kept (s : State) : Kept s (startHeld s) := by
  unfold startHeld
  split
  · exact kept_ite (startPlan_kept _ _) (Kept.refl s)
  · exact Kept.refl s

theorem afterSettle_kept (s : State) : Kept s (afterSettle s) := by
  unfold afterSettle
  dsimp only
  refine Kept.trans ?_ (homeProgress_kept _)
  refine Kept.trans ?_ (startSearches_kept _)
  exact kept_ite ((startHeld_kept s).trans (setDwell_kept _ _)) (startHeld_kept s)

theorem plannedSettleEnd_kept (p : Plan) (s : State) : Kept s (plannedSettleEnd p s) := by
  unfold plannedSettleEnd
  have h : Kept s { s with mot := { s.mot with settle := none } } := kept_mot fun k => mot_same k rfl rfl rfl rfl rfl
  dsimp only
  split
  · exact h.trans (raiseFault_kept _ _ _ _ _ _)
  · refine Kept.trans ?_ (afterSettle_kept _)
    refine Kept.on_mot (h.trans (foldl_kept p.legs _ fun t l => setAxisRec_kept l.axis _ t fun k =>
      settleOver_sound (k.axis _))) fun k => ?_
    exact mot_same k rfl rfl rfl rfl rfl

/-! ### Service motions -/

theorem loopMove_kept (a : TableAxis) (i : Bool) (n w b : Nat) (c f : Int) (s : State)
    (hcf : s.mot.Sound → positionHeld .x c ∧ positionHeld .x f) : Kept s (loopMove a i n w b c f s) := by
  unfold loopMove
  dsimp only
  have h : Kept s { s with mot := { s.mot with service := some (.loop a i (shiftNext n) w b c f .none)
                                               serviceSettle := none } } :=
    kept_mot fun k => ⟨fun a => by cases a <;> exact k.axis _, fun a' n' k' w' b' c' f' e' he => by cases he; exact hcf k⟩
  refine h.trans (setAxisRec_kept _ _ _ fun k => ?_)
  have r : (s.mot.axis (tableAxis a)).Sound (tableAxis a) := by
    have := k.axis (tableAxis a)
    cases a <;> exact this
  split <;> exact ⟨r.1, r.2, r.3, r.4, r.5, r.6, r.7⟩

theorem serviceOver_kept (op : ServiceOp) (c : EndCause) (s : State) (h : s.mot.Sound → savedHeld op) :
    Kept s (serviceOver op c s) :=
  (finishService_kept _ _ _ _ h).trans (afterSettle_kept _)

theorem serviceSettleEnd_kept (s : State) : Kept s (serviceSettleEnd s) := by
  unfold serviceSettleEnd
  have h : Kept s { s with mot := { s.mot with serviceSettle := none } } := kept_mot fun k => mot_same k rfl rfl rfl rfl rfl
  generalize hu : ({ s with mot := { s.mot with serviceSettle := none } } : State) = u at h
  dsimp only
  split
  · split
    · exact h.trans (raiseFault_kept _ _ _ _ _ _)
    · refine Kept.trans ?_ (serviceOver_kept _ _ _ fun _ _ _ _ _ _ _ _ _ e => by cases e)
      exact h.trans (setAxisRec_kept _ _ _ fun k => settleOver_sound (k.axis _))
  · rename_i a i n w b c f cause hs
    have saved (m : Mot) (hm : m.service = u.mot.service) (k : m.Sound) : positionHeld .x c ∧ positionHeld .x f :=
      k.saved _ _ _ _ _ _ _ _ (hm.trans hs)
    split
    · refine (h.trans (setAxisRec_kept (tableAxis a) _ _ fun k => ?_)).trans (loopMove_kept _ _ _ _ _ _ _ _ fun k => ?_)
      · have r := k.axis (tableAxis a)
        exact ⟨r.1, r.2, r.3, r.4, r.5, r.6, r.7⟩
      · exact saved _ (by cases a <;> rfl) k
    · refine (h.trans (setAxisRec_kept (tableAxis a) _ _ fun k => settleOver_sound (k.axis _))).trans ?_
      refine serviceOver_kept _ _ _ fun k a' n' k' w' b' c' f' e' he => ?_
      cases he
      exact saved _ (by cases a <;> rfl) k
  · exact h

/-! ### Ticks -/

theorem planTicksOver_kept (p : Plan) (s : State) : Kept s (planTicksOver p s) := by
  unfold planTicksOver
  refine kept_ite (kept_ite (plannedSettleEnd_kept _ _) ?_) (Kept.refl s)
  exact kept_mot fun k => mot_same k rfl rfl rfl rfl rfl

theorem releaseC_kept (a : Axis) (s : State) : Kept s (releaseC a s) := by
  unfold releaseC
  (repeat' split)
  · exact kept_mot fun k => mot_same k rfl rfl rfl rfl rfl
  · exact kept_mot fun k => mot_same k rfl rfl rfl rfl rfl
  · exact kept_mot fun k => mot_same k rfl rfl rfl rfl rfl
  · exact Kept.refl s

theorem lastTickEnd_kept (a : Axis) (s : State) : Kept s (lastTickEnd a s) := by
  unfold lastTickEnd
  dsimp only
  have h : Kept s (startSearches (releaseC a (setAxisRec a { (s.mot.axis a).still with
      state := if (s.mot.axis a).state = .moving then .settling else (s.mot.axis a).state } s))) := by
    refine Kept.trans (Kept.trans (setAxisRec_kept _ _ _ fun k => ?_) (releaseC_kept _ _)) (startSearches_kept _)
    have r := k.axis a
    exact ⟨r.1, r.2, r.3, r.4, r.5, r.6, r.7⟩
  generalize startSearches _ = t at h ⊢
  refine kept_ite (kept_ite (h.trans (serviceSettleEnd_kept _)) ?_) ?_
  · exact h.on_mot fun k => mot_same k rfl rfl rfl rfl rfl
  · split
    · exact h.trans (planTicksOver_kept _ _)
    · exact h

theorem nextTick_kept (a : Axis) (p : Bool) (d : Drive) (s : State) : Kept s (nextTick a p d s) :=
  setAxisRec_kept _ _ _ fun k => take_sound (d := d) (p := p) (k.axis a) |> fun r => ⟨r.1, r.2, r.3, r.4, r.5, r.6, r.7⟩

theorem tickEnd_kept (a : Axis) (s : State) : Kept s (tickEnd a s) := by
  have next (f : AxisRec → AxisRec) (h : ∀ r : AxisRec, r.Sound a → (f r).Sound a) :
      Kept s (setAxisRec a (f (s.mot.axis a)) s) := setAxisRec_kept _ _ _ fun k => h _ (k.axis a)
  unfold tickEnd
  dsimp only
  split
  · exact Kept.refl s
  · rename_i p ticks _
    exact kept_ite (lastTickEnd_kept _ _)
      (next (fun r => { r with drive := .profile p ticks.tail, tick := {} }) fun r h => ⟨h.1, h.2, h.3, h.4, h.5, h.6, h.7⟩)
  · exact kept_ite (lastTickEnd_kept _ _)
      (next (fun r => { r with tick := {} }) fun r h => ⟨h.1, h.2, h.3, h.4, h.5, h.6, h.7⟩)
  · exact kept_ite (((searchEnds_kept _ _).trans (startSearches_kept _)).trans (homeProgress_kept _)) (nextTick_kept _ _ _ _)

theorem issueThen_kept (a : Axis) (n : Nat) (f : State → State) (s : State) (h : ∀ t, Kept t (f t)) :
    Kept s (issueThen a n f s) :=
  (issuePulses_kept a n s).trans (kept_ite (searchFails_kept _ _ _) (h _))

theorem tickAxis_kept (a : Axis) (s : State) : Kept s (tickAxis a s) :=
  kept_ite (Kept.refl s) (issueThen_kept _ _ _ _ fun t => tickEnd_kept a t)

theorem gapEnd_kept (s : State) : Kept s (gapEnd s) := by
  unfold gapEnd
  have h : Kept s { s with mot := { s.mot with cGap := none } } := kept_mot fun k => mot_same k rfl rfl rfl rfl rfl
  refine kept_ite ?_ (Kept.refl s)
  dsimp only
  split
  · exact h.on_mot fun k => mot_same k rfl rfl rfl rfl rfl
  · exact h.trans (startSearches_kept _)

/-! ### Plans made -/

theorem adoptLegRates_kept (l : List Leg) (s : State) : Kept s (adoptLegRates l s) :=
  foldl_kept _ _ fun _ _ => setAxisRec_kept _ _ _ fun k => adoptRates_sound (k.axis _)

theorem holdPlan_kept (i : Item) (o f : Bool) (s : State) : Kept s (holdPlan i o f s).1 := by
  unfold holdPlan
  dsimp only
  split
  · exact Kept.refl s
  · dsimp only
    refine kept_ite (Kept.trans ?_ (setDwell_kept _ _)) ?_
    · exact (adoptLegRates_kept _ s).on_mot fun k => mot_same k rfl rfl rfl rfl rfl
    · exact (adoptLegRates_kept _ s).on_mot fun k => mot_same k rfl rfl rfl rfl rfl

theorem setSlot_kept (p : Nat) (c : Slot) (s : State) : Kept s (setSlot p c s) :=
  kept_sqc fun h => ⟨h.1, by simpa using h.2, h.3, h.4, h.5, h.6⟩

theorem commitPlan_kept (s : State) : Kept s (commitPlan s).1 := by
  unfold commitPlan
  split
  · exact Kept.refl s
  · split
    · dsimp only
      refine Kept.trans ?_ (panelTest_kept _)
      refine Kept.trans ?_ (abandonRange_kept _ _ _)
      exact kept_ite (setSlot_kept _ _ _) (Kept.refl s)
    · exact holdPlan_kept _ _ _ _

theorem runPlan_kept (s : State) : Kept s (runPlan s) := by
  unfold runPlan
  dsimp only
  split
  · exact setDwell_kept _ s
  · split
    · rename_i i _
      split
      · have h : Kept s (panelTest (setHead { (abandonRange i none s).wmu.head with content := .unknown, record := none }
            (abandonRange i none s))) :=
          ((abandonRange_kept _ _ _).trans (setHead_kept _ _)).trans (panelTest_kept _)
        exact kept_ite (h.trans (setDwell_kept _ _)) h
      · have h := (holdPlan_kept i true false s).trans (startHeld_kept _)
        exact kept_ite (h.trans (setDwell_kept _ _)) h
    · exact kept_ite (setDwell_kept _ s) (Kept.refl s)

theorem lateTable_kept (s : State) : Kept s (lateTable s) := by
  unfold lateTable
  dsimp only
  have h := raiseD_kept .lateTable (headItem s) none (Int.ofNat (lateTicks s)) s
  split
  · exact (h.trans (placeReturned_kept _ _)).trans (setHead_kept _ _)
  · exact h

theorem atClose_kept (s : State) : Kept s (atClose s) := by
  unfold atClose
  exact kept_ite (kept_ite (lateTable_kept s) (kept_mot fun k => mot_same k rfl rfl rfl rfl rfl)) (Kept.refl s)

end Sys2Proof.Machine
end

