-- ==== Sys2Proof/Laws/KeepsRun.lean ====
section
/-! SUPPORT. What the machine's run keeps: windows and the head load, the tape, the chain, the channels. -/

namespace Sys2Proof.Machine

variable {s t : State}

/-! ### Windows -/

theorem historyAdd_length (h : List WindowResult) (r : WindowResult) : (historyAdd h r).length ≤ 16 := by
  simp only [historyAdd, List.length_drop, List.length_append, List.length_singleton]
  omega

theorem enterResult_kept (n : Fin 12) (r : WindowResult) (s : State) : Kept s (enterResult n r s) :=
  setWindowRec_kept _ _ _ fun _ => historyAdd_length _ _

theorem raiseBurst_kept (n : Fin 12) (s : State) : Kept s (raiseBurst n s) :=
  (raiseFault_kept _ _ _ _ _ _).trans (setWindowRec_kept _ _ _ fun _ => Nat.zero_le _)

theorem forgetChain_kept (q : Nat) (s : State) (h : s.sqc.Sound → q = s.sqc.q) : Kept s (forgetChain q s) := by
  unfold forgetChain
  refine (pendAll_kept (chainItems s) s).on_sqc fun k => ⟨k.1, ?_, k.3, k.4, k.5, k.6⟩
  simp only [pendAll_keeps] at k ⊢
  simpa using h k

theorem chainJam_kept (s : State) : Kept s (chainJam s) :=
  (forgetChain_kept _ _ fun k => k.2).on_sqc fun k => ⟨k.1, k.2, k.3, k.4, k.5, k.6⟩

theorem tapeJam_kept (m : Option RunMode) (s : State) : Kept s (tapeJam m s) := by
  unfold tapeJam
  split
  · refine Kept.trans ?_ (reportReel_kept _ _)
    refine Kept.trans ?_ (tapeReport_kept _ _ _)
    exact kept_tmu fun k => ⟨k.1, k.2, k.3, k.4⟩
  · split
    · refine Kept.trans ?_ (tapeReport_kept _ _ _)
      refine Kept.trans ?_ (placeReturned_kept _ _)
      exact kept_tmu fun k => ⟨wf_write k.1, k.2, k.3, k.4⟩
    · exact tapeReport_kept _ _ _
  · exact Kept.refl s

theorem partMissHead_kept (s : State) : Kept s (partMissHead s) := by
  unfold partMissHead
  dsimp only
  split
  · exact kept_ite (setHead_kept _ _) ((returnTried_kept _ _).trans (setHead_kept _ _))
  · exact setHead_kept _ _

theorem partMiss_kept (n : Fin 12) (w : Window) (s : State) : Kept s (partMiss n w s) := by
  unfold partMiss
  dsimp only
  have h := (partMissHead_kept s).trans
    (raiseFault_kept .headEmpty (windowClass w) s.wmu.head.record none (Int.ofNat n.val) _)
  split
  · exact h.trans (raiseAbandoned_kept _ _)
  · exact h

theorem setLead_kept (role : WindowRole) (r : LeadResult) (s : State) : Kept s (setLead role r s) := by
  unfold setLead
  split
  · exact setHead_kept _ _
  · exact setHead_kept _ _
  · exact Kept.refl s

theorem missEffect_kept (n : Fin 12) (w : Window) (s : State) : Kept s (missEffect n w s) := by
  unfold missEffect
  dsimp only
  split
  · exact partMiss_kept _ _ _
  · exact (setLead_kept _ _ _).trans (raiseFault_kept _ _ _ _ _ _)
  · exact (setLead_kept _ _ _).trans (raiseFault_kept _ _ _ _ _ _)
  · exact (raiseFault_kept _ _ _ _ _ _).trans (chainJam_kept _)
  · exact (raiseFault_kept _ _ _ _ _ _).trans (tapeJam_kept _ _)
  · exact raiseFault_kept _ _ _ _ _ _

theorem missWindow_kept (n : Fin 12) (w : Window) (s : State) : Kept s (missWindow n w s) := by
  unfold missWindow
  dsimp only
  have h := (enterResult_kept n .miss s).trans (missEffect_kept n w _)
  exact (kept_ite (h.trans (raiseBurst_kept _ _)) h).trans (panelTest_kept _)

theorem closeWindow_kept (n : Fin 12) (s : State) : Kept s (closeWindow n s) := by
  unfold closeWindow
  dsimp only
  have h (l : Option (Angle × Bool)) : Kept s (setWindowRec n
      { s.wmu.windows[n] with isOpen := false, capture := none, mark := false, lastCapture := l } s) :=
    setWindowRec_kept _ _ _ fun k => k.2 n
  split
  · refine kept_ite (h _) (kept_ite ?_ ?_)
    · refine Kept.trans ?_ (setLead_kept _ _ _)
      exact Kept.trans (h _) (enterResult_kept n .pass _)
    · exact Kept.trans (h _) (enterResult_kept n .pass _)
  · exact kept_ite ((h _).trans (enterResult_kept _ _ _)) (kept_ite ((h _).trans (missWindow_kept _ _ _)) (h _))

theorem captureWindow_kept (n : Fin 12) (s : State) : Kept s (captureWindow n s) := by
  unfold captureWindow
  dsimp only
  have h (v : Window) (hv : v.history = s.wmu.windows[n].history) : Kept s (setWindowRec n v s) :=
    setWindowRec_kept _ _ _ fun k => by rw [hv]; exact k.2 n
  refine kept_ite ?_ (h _ rfl)
  have h2 := ((h { s.wmu.windows[n] with capture := some s.stu.angle, lastCapture := some (s.stu.angle, false) } rfl).trans
    (enterResult_kept n .miss _)).trans
    (raiseFault_kept .guardTrip (windowClass s.wmu.windows[n]) none none (Int.ofNat n.val) _)
  exact kept_ite (h2.trans (raiseBurst_kept _ _)) h2

theorem openWindow_kept (n : Fin 12) (s : State) : Kept s (openWindow n s) := by
  unfold openWindow
  dsimp only
  have h : Kept s (setWindowRec n { s.wmu.windows[n] with isOpen := true, capture := none } s) :=
    setWindowRec_kept _ _ _ fun k => k.2 n
  split
  · exact kept_ite (h.trans (captureWindow_kept _ _)) h
  · exact h

theorem crossWindow_kept (a : Angle) (n : Fin 12) (s : State) : Kept s (crossWindow a n s) := by
  unfold crossWindow
  dsimp only
  exact kept_ite (kept_ite (closeWindow_kept _ _) (kept_ite (openWindow_kept _ _) (Kept.refl s))) (Kept.refl s)

theorem crossWindows_kept (a : Angle) (s : State) : Kept s (crossWindows a s) :=
  foldl_kept _ _ fun _ _ => crossWindow_kept _ _ _

theorem edgeWindow_kept (i : InputNo) (e : Edge) (n : Fin 12) (s : State) : Kept s (edgeWindow i e n s) := by
  unfold edgeWindow
  dsimp only
  exact kept_ite (captureWindow_kept _ _) (Kept.refl s)

theorem edgeWindows_kept (i : InputNo) (e : Edge) (s : State) : Kept s (edgeWindows i e s) :=
  foldl_kept _ _ fun _ _ => edgeWindow_kept _ _ _ _

theorem markWindows_kept (r : WindowRole) (s : State) : Kept s (markWindows r s) :=
  mapWindows_kept _ _ fun w h => by split <;> exact h

/-! ### The head load -/

theorem deliver_kept (c : HeadContent) (s : State) : Kept s (deliver c s) := by
  unfold deliver
  dsimp only
  refine (itemLeaves_kept s).trans (Kept.trans ?_ (setHead_kept _ _))
  split
  · exact kept_ite (placeReturned_kept _ _) (setItemState_kept _ _ _)
  · exact Kept.refl _

theorem raiseLeadNone_kept (i : Item) (w : Option (Fin 12 × FaultClass)) (s : State) : Kept s (raiseLeadNone i w s) := by
  unfold raiseLeadNone
  split
  · exact raiseFault_kept _ _ _ _ _ _
  · exact Kept.refl s

theorem raiseSkew_kept (i : Item) (d : Option Nat) (s : State) : Kept s (raiseSkew i d s) := by
  unfold raiseSkew
  split
  · exact raiseW_kept _ _ _ _ _
  · exact Kept.refl s

theorem settleHead_kept (s : State) : Kept s (settleHead s) := by
  unfold settleHead
  dsimp only
  split
  · refine kept_ite ?_ ((placeReturned_kept _ _).trans (setHead_kept _ _))
    exact ((((setItemState_kept _ _ _).trans (setHead_kept _ _)).trans (raiseLeadNone_kept _ _ _)).trans
      (raiseLeadNone_kept _ _ _)).trans (raiseSkew_kept _ _ _)
  · exact Kept.refl s
  · exact kept_ite (setHead_kept _ _) (Kept.refl s)

theorem markReported_kept (s : State) : Kept s (markReported s) := mapWindows_kept _ _ fun _ h => h

theorem cycleReport_kept (r : Option Item) (o : CycleOutcome) (s : State) : Kept s (cycleReport r o s) :=
  (enqueue_kept _ _).trans (markReported_kept _)

theorem closeHeadWindows_kept (s : State) : Kept s (closeHeadWindows s) :=
  foldl_kept _ _ fun _ _ => kept_ite (closeWindow_kept _ _) (Kept.refl _)

theorem atOpenOutcome_kept (s : State) : Kept s (atOpenOutcome s) := by
  unfold atOpenOutcome
  dsimp only
  refine kept_ite (kept_ite ?_ (closeHeadWindows_kept s)) (Kept.refl s)
  exact (((closeHeadWindows_kept s).trans (settleHead_kept _)).trans (cycleReport_kept _ _ _)).trans (panelTest_kept _)

/-! ### The tape -/

theorem setEject_kept (s : State) : Kept s (setEject s) := setHead_kept _ _

theorem tapeTake_kept (c : Slot) (s : State) : Kept s (tapeTake c s) := by
  unfold tapeTake
  have h : Kept s { s with tmu := { s.tmu with lastTaped := none } } := kept_tmu fun k => ⟨k.1, k.2, k.3, k.4⟩
  dsimp only
  split
  · refine kept_ite ?_ ?_
    · exact ((h.trans (appendEntry_kept _ _)).trans (setItemState_kept _ _ _)).on_tmu fun k => ⟨k.1, k.2, k.3, k.4⟩
    · exact ((h.trans (raiseD_kept _ _ _ _ _)).trans (placeReturned_kept _ _)).trans (setEject_kept _)
  · exact h.trans (setEject_kept _)
  · exact kept_ite (h.trans (setEject_kept _)) h

theorem judgeDelivery_kept (s : State) : Kept s (judgeDelivery s) := by
  unfold judgeDelivery
  have h (m : Option Item) : Kept s { s with tmu := { s.tmu with mark := m } } := kept_tmu fun k => ⟨k.1, k.2, k.3, k.4⟩
  refine kept_ite ?_ (Kept.refl s)
  dsimp only
  split
  · exact kept_ite (kept_ite (h _) (((h _).trans (abandonRange_kept _ _ _)).trans (panelTest_kept _))) (h _)
  · exact h _

theorem panelEndEntry_kept (p : Nat) (s : State) : Kept s (panelEndEntry p s) := by
  unfold panelEndEntry
  dsimp only
  refine Kept.trans ?_ (tapeReport_kept _ _ _)
  split
  · exact kept_ite ((panelReport_kept _ _ _).trans (endRun_kept _)) (Kept.refl s)
  · exact Kept.refl s

theorem feedEntry_kept (s : State) (h : s.tmu.position < s.tmu.mapLength) : Kept s (feedEntry s) := by
  unfold feedEntry
  have h1 : Kept s { s with tmu := { s.tmu with position := s.tmu.position + 1, mark := none } } :=
    kept_tmu fun k => ⟨k.1, k.2, Nat.le_trans h k.2, k.4⟩
  dsimp only
  split
  · exact kept_ite (h1.trans (deliver_kept _ _)) (h1.trans (deliver_kept _ _))
  · exact h1.trans (deliver_kept _ _)
  · exact (h1.trans (deliver_kept _ _)).trans (panelEndEntry_kept _ _)

theorem mapEnded_kept (s : State) : Kept s (mapEnded s) := by
  unfold mapEnded
  dsimp only
  have h : Kept s { s with tmu := { s.tmu with mark := none, mapEnd := true } } := kept_tmu fun k => ⟨k.1, k.2, k.3, k.4⟩
  have h := h.trans (deliver_kept .empty _)
  generalize deliver .empty _ = t at h ⊢
  have h := (kept_ite (c := (!s.tmu.mapEnd && !tapeEnd s) = true) (h.trans (raiseD_kept .tapeCount none none 0 _)) h).trans
    (panelEndEntry_kept s.tmu.mapLength _)
  exact kept_ite (h.trans (tapeReport_kept _ _ _)) h

theorem tapeFeed_kept (s : State) : Kept s (tapeFeed s) := by
  unfold tapeFeed
  split
  · rename_i h; exact feedEntry_kept s h
  · exact mapEnded_kept s

/-! ### The chain -/

/-- What changes of the Sequencer Controller is the redo queue alone. -/
def redoOnly (s t : State) : Prop := t.sqc = { s.sqc with redo := t.sqc.redo }

theorem redoOnly.refl (s : State) : redoOnly s s := rfl

theorem redoOnly.of_eq (h : t.sqc = s.sqc) : redoOnly s t := by rw [redoOnly, h]

theorem redoOnly.trans {u : State} (h : redoOnly s t) (k : redoOnly t u) : redoOnly s u := by
  rw [redoOnly] at h k ⊢
  rw [k, h]

theorem placeReturned_redo (i : Item) (s : State) : redoOnly s (placeReturned i s) := by
  unfold placeReturned
  split <;> exact rfl

theorem leaveRedo_redo (i : Item) (s : State) : redoOnly s (leaveRedo i s) := rfl

theorem abandonRange_redo (i : Item) (p : Option Nat) (s : State) : redoOnly s (abandonRange i p s) :=
  (redoOnly.trans (t := leaveRedo i (abandonItem i .range s)) rfl (.of_eq (raiseW_keeps _ _ _ _ _).2.2.2.2.1))

theorem itemLeaves_redo (s : State) : redoOnly s (itemLeaves s) := by
  unfold itemLeaves
  split
  · split
    · exact rfl
    · exact redoOnly.trans (placeReturned_redo _ _) (.of_eq (setHead_keeps _ _).2.2.1)
  · exact rfl

theorem deliver_redo (c : HeadContent) (s : State) : redoOnly s (deliver c s) := by
  unfold deliver
  dsimp only
  refine (itemLeaves_redo s).trans (redoOnly.trans ?_ (.of_eq (setHead_keeps _ _).2.2.1))
  split
  · split
    · exact placeReturned_redo _ _
    · exact rfl
  · exact rfl

theorem tapeTake_redo (c : Slot) (s : State) : redoOnly s (tapeTake c s) := by
  unfold tapeTake
  dsimp only
  split
  · split
    · exact .of_eq (by simp)
    · refine redoOnly.trans ?_ (.of_eq (setHead_keeps _ _).2.2.1)
      refine redoOnly.trans ?_ (placeReturned_redo _ _)
      exact .of_eq (by simp)
  · exact .of_eq (by simp [setEject])
  · split
    · exact .of_eq (by simp [setEject])
    · exact rfl

theorem slotLeaves_redo (c : Slot) (s : State) : redoOnly s (slotLeaves c s) := by
  unfold slotLeaves
  split
  · exact (deliver_redo _ _).trans (tapeTake_redo _ _)
  · split
    · exact deliver_redo _ _
    · exact deliver_redo _ _
    · split
      · exact deliver_redo _ _
      · exact deliver_redo _ _

theorem passSlot_redo (p : Nat) (c : Slot) (s : State) : redoOnly s (passSlot p c s).1 := by
  unfold passSlot
  dsimp only
  repeat' split
  all_goals simp only
  all_goals first
    | exact rfl
    | exact placeReturned_redo _ _

theorem assign_redo (s : State) : redoOnly s (assign s).1 := by
  unfold assign
  split
  · exact rfl
  · have h : redoOnly s ((assignSearch s).abandoned.foldl (fun t i => abandonRange i (some 1) t) s) :=
      foldl_ind (fun t => redoOnly s t) rfl fun t x h => h.trans (abandonRange_redo _ _ _)
    dsimp only
    split
    · exact h
    · exact h.trans rfl

theorem moveSlots_redo (p : Nat) (l : List Slot) (s : State) : redoOnly s (moveSlots p l s).1 := by
  induction l generalizing p s with
  | nil => exact rfl
  | cons c l ih =>
    cases l with
    | nil => exact rfl
    | cons d l => exact (passSlot_redo p c s).trans (ih _ _)

theorem composeFrame_redo (p : Nat) (l : List Slot) (s : State) : redoOnly s (composeFrame p l s).1 := by
  induction l generalizing p s with
  | nil => exact rfl
  | cons c l ih =>
    unfold composeFrame
    dsimp only
    refine redoOnly.trans ?_ (ih _ _)
    repeat' split
    all_goals first
      | exact rfl
      | exact placeReturned_redo _ _

theorem slotLeaves_kept (c : Slot) (s : State) : Kept s (slotLeaves c s) := by
  unfold slotLeaves
  split
  · exact (deliver_kept _ _).trans (tapeTake_kept _ _)
  · split
    · exact deliver_kept _ _
    · exact deliver_kept _ _
    · split
      · exact deliver_kept _ _
      · exact deliver_kept _ _

theorem passSlot_kept (p : Nat) (c : Slot) (s : State) : Kept s (passSlot p c s).1 := by
  unfold passSlot
  dsimp only
  repeat' split
  all_goals simp only
  all_goals first
    | exact Kept.refl s
    | exact placeReturned_kept _ _
    | exact setItemState_kept _ _ _
    | exact (placeReturned_kept _ _).trans (setItemState_kept _ _ _)

theorem moveSlots_kept (p : Nat) (l : List Slot) (s : State) : Kept s (moveSlots p l s).1 := by
  induction l generalizing p s with
  | nil => exact Kept.refl s
  | cons c l ih =>
    cases l with
    | nil => exact Kept.refl s
    | cons d l => exact (passSlot_kept p c s).trans (ih _ _)

theorem moveSlots_length (p : Nat) (l : List Slot) (s : State) : (moveSlots p l s).2.length = l.length - 1 := by
  induction l generalizing p s with
  | nil => rfl
  | cons c l ih =>
    cases l with
    | nil => rfl
    | cons d l =>
      have := ih (p + 1) (passSlot p c s).1
      simp only [moveSlots, List.length_cons] at this ⊢
      omega

theorem composeFrame_kept (p : Nat) (l : List Slot) (s : State) : Kept s (composeFrame p l s).1 := by
  induction l generalizing p s with
  | nil => exact Kept.refl s
  | cons c l ih =>
    unfold composeFrame
    dsimp only
    refine Kept.trans ?_ (ih _ _)
    repeat' split
    all_goals first
      | exact Kept.refl s
      | exact placeReturned_kept _ _

theorem composeFrame_length (p : Nat) (l : List Slot) (s : State) : (composeFrame p l s).2.1.length = l.length := by
  induction l generalizing p s with
  | nil => rfl
  | cons c l ih =>
    unfold composeFrame
    dsimp only
    rw [List.length_cons, List.length_cons, ih]

theorem chainIndex_kept (s : State) : Kept s (chainIndex s) := by
  unfold chainIndex
  dsimp only
  refine Kept.trans ?_ (panelTest_kept _)
  refine Kept.trans ?_ (judgeStarved_kept _)
  have k1 := slotLeaves_kept (slotAt s.sqc.q s) s
  have r1 := slotLeaves_redo (slotAt s.sqc.q s) s
  generalize slotLeaves (slotAt s.sqc.q s) s = s1 at k1 r1 ⊢
  have k2 := k1.trans (moveSlots_kept 1 s.sqc.chain s1)
  have r2 := r1.trans (moveSlots_redo 1 s.sqc.chain s1)
  have l2 := moveSlots_length 1 s.sqc.chain s1
  generalize moveSlots 1 s.sqc.chain s1 = m at k2 r2 l2 ⊢
  obtain ⟨s2, moved⟩ := m
  have k3 := k2.trans (assign_kept s2)
  have r3 := r2.trans (assign_redo s2)
  generalize assign s2 = a at k3 r3 ⊢
  obtain ⟨s3, first⟩ := a
  have k4 := k3.trans (composeFrame_kept 1 (first :: moved) s3)
  have r4 := r3.trans (composeFrame_redo 1 (first :: moved) s3)
  have l4 := composeFrame_length 1 (first :: moved) s3
  generalize composeFrame 1 (first :: moved) s3 = c at k4 r4 l4 ⊢
  obtain ⟨s4, chain', frame⟩ := c
  dsimp only at k4 r4 l2 l4 ⊢
  refine ⟨⟨k4.store, k4.pending, k4.lnk, k4.stu, k4.wmu, k4.pgs, fun h => ?_, k4.tmu, k4.mot, k4.fau, k4.queue⟩, k4.msv⟩
  have h4 := k4.sqc h
  refine ⟨h4.1, ?_, h4.3, h4.4, h4.5, h4.6⟩
  have e : s4.sqc.q = s.sqc.q := by rw [r4]
  have hq := h.chain
  have h8 := h.map.1
  simp only [List.length_cons] at l4
  dsimp only
  omega

theorem atIndex_kept (s : State) : Kept s (atIndex s) := by
  unfold atIndex
  have h : Kept s { s with stu := { s.stu with indexFired := true } } := kept_stu fun k => ⟨k.1, k.2, k.3, k.4, k.5⟩
  refine kept_ite ?_ (kept_sqc fun k => ⟨k.1, k.2, k.3, k.4, k.5, k.6⟩)
  dsimp only
  split
  · refine Kept.trans ?_ (panelTest_kept _)
    refine Kept.trans ?_ (tapeFeed_kept _)
    exact h.on_sqc fun k => ⟨k.1, k.2, k.3, k.4, k.5, k.6⟩
  · exact h.trans (chainIndex_kept _)
  · exact h

theorem fireOne_kept (acc : State × List Nat) (n : Nat) : Kept acc.1 (fireOne acc n).1 := by
  unfold fireOne
  obtain ⟨s, fired⟩ := acc
  dsimp only
  split
  · split
    · split
      · exact setSlot_kept _ _ _
      · exact (placeReturned_kept _ _).trans (setSlot_kept _ _ _)
    · exact Kept.refl s
  · exact Kept.refl s

theorem atFire_kept (s : State) : Kept s (atFire s) := by
  unfold atFire
  refine kept_ite ?_ (Kept.refl s)
  split
  · exact Kept.refl s
  · rename_i frame _
    have h : Kept s (frame.foldl fireOne (s, [])).1 :=
      foldl_ind (fun acc : State × List Nat => Kept s acc.1) (Kept.refl s) fun acc n h => h.trans (fireOne_kept acc n)
    generalize frame.foldl fireOne (s, []) = acc at h ⊢
    obtain ⟨t, fired⟩ := acc
    exact h.on_sqc fun k => ⟨k.1, k.2, k.3, k.4, k.5, k.6⟩

/-! ### Verdicts -/

theorem setDispenserRec_kept (n : Fin 48) (d : Dispenser) (s : State)
    (h : s.sqc.Sound → d.history.length ≤ 8 ∧ d.failures ≤ 255 ∧ 1 ≤ d.position ∧ d.position ≤ 96) :
    Kept s (setDispenserRec n d s) :=
  kept_sqc fun k => by
    have each (p : Dispenser → Prop) (hd : p d) (hs : ∀ m : Fin 48, p s.sqc.dispensers[m]) (m : Fin 48) :
        p (s.sqc.dispensers.set n.val d)[m] := by
      by_cases e : n.val = m.val
      · have : n = m := Fin.ext e
        subst this
        simpa using hd
      · simpa [Vector.getElem_set, e] using hs m
    obtain ⟨h1, h2, h3⟩ := h k
    exact ⟨k.1, k.2, k.3, each (·.history.length ≤ 8) h1 k.4, each (·.failures ≤ 255) h2 k.5,
      each (fun d => 1 ≤ d.position ∧ d.position ≤ 96) h3 k.6⟩

theorem dispenserReport_kept (n : Fin 48) (c : DispenserCause) (s : State) : Kept s (dispenserReport n c s) :=
  enqueue_kept _ _

theorem verdictAdd_length (h : List VCode) (c : VCode) : (verdictAdd h c).length ≤ 8 := by
  simp only [verdictAdd, List.length_drop, List.length_append, List.length_singleton]
  omega

theorem failuresAfter_le (d : Dispenser) (c : VCode) (h : d.failures ≤ 255) : failuresAfter d c ≤ 255 := by
  unfold failuresAfter
  split
  · exact Nat.zero_le _
  · exact h
  · exact Nat.min_le_right _ _
  · split
    · exact Nat.min_le_right _ _
    · exact h

theorem enterVerdict_kept (i : Item) (c : VCode) (s : State) : Kept s (enterVerdict i c s) := by
  unfold enterVerdict
  dsimp only
  have h : Kept s (setDispenserRec (stepOf i s).dispenser { s.sqc.dispensers[(stepOf i s).dispenser] with
      history := verdictAdd s.sqc.dispensers[(stepOf i s).dispenser].history c,
      failures := failuresAfter s.sqc.dispensers[(stepOf i s).dispenser] c } s) :=
    setDispenserRec_kept _ _ _ fun k => ⟨verdictAdd_length _ _, failuresAfter_le _ _ (k.5 _), k.6 _⟩
  refine kept_ite (kept_ite ?_ (kept_ite ?_ h)) h
  · refine Kept.trans ?_ (dispenserReport_kept _ _ _)
    exact h.trans (setDispenserRec_kept _ _ _ fun k =>
      ⟨verdictAdd_length _ _, by simpa [setDispenserRec] using k.5 (stepOf i s).dispenser,
        by simpa [setDispenserRec] using k.6 (stepOf i s).dispenser⟩)
  · refine Kept.trans (Kept.trans ?_ (dispenserReport_kept _ _ _)) (raiseD_kept _ _ _ _ _)
    exact h.trans (setDispenserRec_kept _ _ _ fun k =>
      ⟨verdictAdd_length _ _, by simpa [setDispenserRec] using k.5 (stepOf i s).dispenser,
        by simpa [setDispenserRec] using k.6 (stepOf i s).dispenser⟩)

theorem applyVerdict_kept (c : VCode) (s : State) : Kept s (applyVerdict c s) := by
  unfold applyVerdict
  dsimp only
  split
  · exact kept_ite ((enterVerdict_kept _ _ _).trans (setSlot_kept _ _ _))
      (((enterVerdict_kept _ _ _).trans (setSlot_kept _ _ _)).trans (returnWithTry_kept _ _))
  · exact Kept.refl s
  · exact kept_ite (setSlot_kept _ _ _) ((setSlot_kept _ _ _).trans (raiseW_kept _ _ _ _ _))

theorem atVerifyClose_kept (s : State) : Kept s (atVerifyClose s) := by
  unfold atVerifyClose
  refine kept_ite ?_ (kept_sqc fun k => ⟨k.1, k.2, k.3, k.4, k.5, k.6⟩)
  dsimp only
  refine Kept.trans ?_ (panelTest_kept _)
  exact ((applyVerdict_kept _ _).trans (raiseW_kept _ _ _ _ _)).on_sqc fun k => ⟨k.1, k.2, k.3, k.4, k.5, k.6⟩

end Sys2Proof.Machine
end

