-- ==== Sys2Proof/Laws/KeepsShaft.lean ====
section
/-! SUPPORT. What the shaft keeps: the channels, the landmarks, the counts, the index mark, rest; and what the accepted edges of
the inputs and the part's own timers keep. -/

namespace Sys2Proof.Machine

variable {s t : State}

/-! ### Channels -/

theorem driveOn_kept (s : State) : Kept s (driveOn s) := by
  unfold driveOn
  refine Kept.trans ?_ (setHead_kept _ _)
  exact kept_stu fun h => ⟨h.1, h.2, h.3, h.4, h.5⟩

theorem ejectOn_kept (s : State) : Kept s (ejectOn s) := kept_ite (setHead_kept _ _) (Kept.refl s)

theorem outputOn_kept (i : ChannelNo) (s : State) : Kept s (outputOn i s) := by
  unfold outputOn
  split
  · exact driveOn_kept s
  · exact ejectOn_kept s
  · exact setSlot_kept _ _ _
  · exact Kept.refl s

theorem commandMarks_kept (i : ChannelNo) (s : State) : Kept s (commandMarks i s) := by
  unfold commandMarks
  split
  · exact setHead_kept _ _
  · exact markWindows_kept _ _
  · exact markWindows_kept _ _
  · exact Kept.refl s

theorem commandOn_kept (i : ChannelNo) (s : State) : Kept s (commandOn i s) := by
  unfold commandOn
  dsimp only
  have h := (setChannelRec_kept i s.stu.channels[i].commandOn s).trans (commandMarks_kept i _)
  exact kept_ite (Kept.refl s) (kept_ite (h.trans (outputOn_kept _ _)) h)

theorem clearMark_kept (i : ChannelNo) (s : State) : Kept s (clearMark i s) := kept_ite (setHead_kept _ _) (Kept.refl s)

theorem spendTrigger_kept (i : ChannelNo) (s : State) : Kept s (spendTrigger i s) := by
  unfold spendTrigger
  dsimp only
  split
  · exact kept_ite (Kept.refl s) (setChannelRec_kept _ _ _)
  · exact Kept.refl s

theorem trySwitch_kept (i : ChannelNo) (s : State) : Kept s (trySwitch i s) := by
  unfold trySwitch
  dsimp only
  exact kept_ite (commandOn_kept _ _) (kept_ite ((clearMark_kept _ _).trans (commandOn_kept _ _))
    ((clearMark_kept _ _).trans (spendTrigger_kept _ _)))

theorem countPulse_kept (i : ChannelNo) (s : State) : Kept s (countPulse i s) :=
  kept_ite (setChannelRec_kept _ _ _) (Kept.refl s)

theorem countDelay_kept (i : ChannelNo) (n d : Nat) (s : State) : Kept s (countDelay i n d s) :=
  kept_ite ((setChannelRec_kept _ _ _).trans (trySwitch_kept _ _)) (setChannelRec_kept _ _ _)

theorem crossChannel_kept (a : Angle) (i : ChannelNo) (s : State) : Kept s (crossChannel a i s) := by
  unfold crossChannel
  refine kept_ite ?_ (Kept.refl s)
  have h := countPulse_kept i s
  split
  · exact kept_ite (h.trans (commandOff_kept _ _)) (kept_ite (h.trans (trySwitch_kept _ _)) h)
  · split
    · exact countDelay_kept _ _ _ _
    · exact kept_ite (h.trans (commandOff_kept _ _)) h
    · exact Kept.refl s

theorem crossChannels_kept (a : Angle) (s : State) : Kept s (crossChannels a s) :=
  foldl_kept _ _ fun _ _ => crossChannel_kept _ _ _

theorem openCaptures_kept (s : State) : Kept s (openCaptures s) := mapChannels_kept _ _

theorem edgeChannel_kept (n : InputNo) (e : Edge) (i : ChannelNo) (s : State) : Kept s (edgeChannel n e i s) := by
  unfold edgeChannel
  dsimp only
  split
  · exact kept_ite (kept_ite ((setChannelRec_kept _ _ _).trans (trySwitch_kept _ _)) (setChannelRec_kept _ _ _)) (Kept.refl s)
  · exact Kept.refl s

theorem edgeChannels_kept (n : InputNo) (e : Edge) (s : State) : Kept s (edgeChannels n e s) :=
  foldl_kept _ _ fun _ _ => edgeChannel_kept _ _ _ _

theorem delayReached_kept (i : ChannelNo) (s : State) : Kept s (delayReached i s) := by
  unfold delayReached
  split
  · exact kept_ite (trySwitch_kept _ _) (Kept.refl s)
  · exact Kept.refl s

theorem widthReached_kept (i : ChannelNo) (s : State) : Kept s (widthReached i s) := by
  unfold widthReached
  split
  · exact commandOff_kept _ _
  · exact Kept.refl s

theorem overrun_kept (i : ChannelNo) (s : State) : Kept s (overrun i s) :=
  (setChannelRec_kept _ _ _).trans (raiseFault_kept _ _ _ _ _ _)

theorem guardChannel_kept (i : ChannelNo) (s : State) : Kept s (guardChannel i s) :=
  kept_ite (overrun_kept _ _) (Kept.refl s)

theorem adoptChannels_kept (s : State) : Kept s (adoptChannels s) :=
  (mapChannels_kept _ s).trans (foldl_kept _ _ fun _ _ => guardChannel_kept _ _)

theorem adoptWindows_kept (s : State) : Kept s (adoptWindows s) := mapWindows_kept _ _ fun w h => Window.adopt_history w h

theorem releaseLock_kept (i : ChannelNo) (s : State) : Kept s (releaseLock i s) :=
  kept_ite (setChannelRec_kept _ _ _) (Kept.refl s)

theorem forcedOn_kept (i : ChannelNo) (s : State) : Kept s (forcedOn i s) := by
  unfold forcedOn
  split
  · exact ejectOn_kept s
  · exact forgetChain_kept _ _ fun _ => rfl
  · refine Kept.trans ?_ (reportReel_kept _ _)
    exact kept_tmu fun k => ⟨k.1, k.2, k.3, k.4⟩
  · exact Kept.refl s

theorem setForce_kept (i : ChannelNo) (on : Bool) (s : State) : Kept s (setForce i on s) := by
  unfold setForce
  dsimp only
  exact kept_ite ((setChannelRec_kept _ _ _).trans (forcedOn_kept _ _)) (setChannelRec_kept _ _ _)

/-! ### Landmarks -/

theorem takeChoice_kept (f : Nat → Bool) (s : State) : Kept s (takeChoice f s).2 := kept_clock

theorem inOrder_kept (b : Bool) {f g : State → State} (hf : ∀ s, Kept s (f s)) (hg : ∀ s, Kept s (g s)) (s : State) :
    Kept s (inOrder b f g s) := by
  unfold inOrder
  split
  · exact (hf _).trans (hg _)
  · exact (hg _).trans (hf _)

theorem eitherOrder_kept (c : Nat → Bool) (b : Bool) {f g : State → State} (hf : ∀ s, Kept s (f s))
    (hg : ∀ s, Kept s (g s)) (s : State) : Kept s (eitherOrder c b f g s) := by
  unfold eitherOrder
  split
  · exact (takeChoice_kept c s).trans (inOrder_kept _ hf hg _)
  · exact (hf _).trans (hg _)

theorem commitDecision_kept (v : Verdict) (s : State) : Kept s (commitDecision v s) := by
  have h (e : s.msv.state = .running .cycling ∨ s.msv.state = .stopping) :
      Kept s { dropTrip true s with msv := { (dropTrip true s).msv with finishing := true } } :=
    (dropTrip_kept true s).on_msv fun k => ⟨k.1, k.2, fun _ => by
      have : (dropTrip true s).msv.state = s.msv.state := by unfold dropTrip; split <;> rfl
      rw [this]; exact e, k.4⟩
  unfold commitDecision
  split
  · rename_i e
    exact kept_ite (Kept.refl s) (h (.inl e))
  · rename_i e
    exact h (.inr e)
  · exact Kept.refl s

theorem atCommit_kept (s : State) : Kept s (atCommit s) := by
  unfold atCommit
  dsimp only
  have h : Kept s (addPendingFault { s with msv := { s.msv with commitPassed := true } }) := by
    refine Kept.trans ?_ (addPendingFault_kept _)
    exact kept_msv fun k => ⟨k.1, k.2, k.3, k.4⟩
  have h := h.trans (judgeDelivery_kept _)
  exact kept_ite ((h.trans (commitPlan_kept _)).trans (commitDecision_kept _ _)) h

theorem atOpenMove_kept (s : State) : Kept s (atOpenMove s) := by
  unfold atOpenMove
  refine Kept.trans ?_ (startHeld_kept _)
  exact kept_mot fun k => mot_same k rfl rfl rfl rfl rfl

theorem atOpen_kept (s : State) : Kept s (atOpen s) :=
  eitherOrder_kept _ _ atOpenOutcome_kept atOpenMove_kept s

theorem deliverLandmark_kept (l : Landmark) (s : State) : Kept s (deliverLandmark l s) := by
  cases l
  · exact atClose_kept s
  · exact atCommit_kept s
  · exact atOpen_kept s
  · exact atIndex_kept s
  · exact atFire_kept s
  · exact atVerifyClose_kept s

theorem fireLandmark_kept (l : Landmark) (s : State) : Kept s (fireLandmark l s) := by
  unfold fireLandmark
  have h : Kept s { s with stu := { s.stu with pointer := l.next } } := kept_stu fun k => ⟨k.1, k.2, k.3, k.4, k.5⟩
  exact kept_ite h (h.trans (deliverLandmark_kept _ _))

theorem boundaryShaft_kept (s : State) : Kept s (boundaryShaft s) := by
  unfold boundaryShaft
  refine Kept.trans (Kept.trans ?_ (adoptChannels_kept _)) (openCaptures_kept _)
  have h : Kept s { s with stu := { s.stu with pointer := some .close, cycle := s.stu.cycle + 1, driveOn := false
                                               indexFired := false } } :=
    kept_stu fun k => ⟨k.1, k.2, k.3, k.4, k.5⟩
  exact h.on_mot fun k => mot_same k rfl rfl rfl rfl rfl

theorem boundaryOthers_kept (s : State) : Kept s (boundaryOthers s) := by
  unfold boundaryOthers
  refine Kept.trans ?_ (adoptWindows_kept _)
  exact kept_msv fun k => ⟨k.1, k.2, k.3, k.4⟩

theorem boundary_kept (s : State) : Kept s (boundary s) :=
  kept_ite (boundaryShaft_kept s) ((boundaryShaft_kept s).trans (boundaryOthers_kept _))

/-! ### Crossings and counts -/

theorem crossDevices_kept (b : Bool) (a : Angle) (s : State) : Kept s (crossDevices b a s) := by
  unfold crossDevices
  split
  · exact eitherOrder_kept _ _ (crossWindows_kept a) (crossChannels_kept a) s
  · exact crossChannels_kept a s

theorem crossing_kept (a : Angle) (s : State) : Kept s (crossing a s) := by
  unfold crossing
  dsimp only
  have h : Kept s (if a = 0 then boundary s else s) := kept_ite (boundary_kept s) (Kept.refl s)
  refine h.trans ?_
  generalize (if a = 0 then boundary s else s) = u
  split
  · rename_i l _
    split
    · have k := takeChoice_kept Config.windowsBeforeLandmark u
      generalize hc : takeChoice Config.windowsBeforeLandmark u = c at k ⊢
      obtain ⟨first, v⟩ := c
      dsimp only at k ⊢
      split
      · exact ((k.trans (crossWindows_kept a _)).trans (fireLandmark_kept l _)).trans (crossDevices_kept _ _ _)
      · exact (k.trans (fireLandmark_kept l _)).trans (crossDevices_kept _ _ _)
    · exact (fireLandmark_kept l _).trans (crossDevices_kept _ _ _)
  · exact crossDevices_kept _ _ _

theorem forwardMove_kept (s : State) : Kept s (forwardMove s) := by
  unfold forwardMove
  dsimp only
  have h : Kept s { s with stu := { s.stu with angle := s.stu.angle + 1 } } := kept_stu fun k => ⟨k.1, k.2, k.3, k.4, k.5⟩
  refine kept_ite (h.on_stu fun k => ⟨k.1, ?_, k.3, k.4, k.5⟩) (kept_ite (h.trans (crossing_kept _ _)) h)
  exact Nat.le_trans (Nat.sub_le _ _) k.2

theorem countMade_kept (b : Bool) (s : State) : Kept s (countMade b s) := by
  unfold countMade
  have h : Kept s { s with msv := { s.msv with atRest := false, restTimer := 0 } } := kept_msv fun k => ⟨k.1, k.2, k.3, k.4⟩
  exact h.on_stu fun k => ⟨Nat.min_le_right _ _, k.2, k.3, k.4, k.5⟩

theorem singleCount_kept (d : Int) (s : State) : Kept s (singleCount d s) := kept_msv fun k => ⟨k.1, k.2, k.3, k.4⟩

theorem dropSingle_kept (s : State) : Kept s (dropSingle s) := by
  unfold dropSingle
  split
  · exact kept_ite ((dropTrip_kept true s).on_msv fun k => ⟨k.1, k.2, k.3, k.4⟩) (Kept.refl s)
  · exact Kept.refl s

theorem forward_kept (s : State) : Kept s (forward s) := by
  unfold forward
  dsimp only
  refine Kept.trans ?_ (forwardMove_kept _)
  have h := (countMade_kept false s).trans (singleCount_kept 1 _)
  generalize singleCount 1 (countMade false s) = u at h ⊢
  have k : Kept s { u with stu := { u.stu with excursion := u.stu.excursion - 1, reverseRaised := (u.stu.reverseRaised &&
      decide (u.stu.excursion - 1 ≠ 0)) } } :=
    h.on_stu fun k => ⟨k.1, k.2, Nat.le_trans (Nat.sub_le _ _) k.3, k.4, k.5⟩
  exact kept_ite (k.trans (dropSingle_kept _)) k

theorem reverse_kept (s : State) : Kept s (reverse s) := by
  unfold reverse
  dsimp only
  have h := (countMade_kept true s).trans (singleCount_kept (-1) _)
  have k : Kept s (reverseCounters (singleCount (-1) (countMade true s))) :=
    h.on_stu fun k => ⟨k.1, Nat.min_le_right _ _, Nat.min_le_right _ _, k.4, k.5⟩
  refine kept_ite (Kept.trans ?_ (raiseFault_kept _ _ _ _ _ _)) k
  exact k.on_stu fun k => ⟨k.1, k.2, k.3, k.4, k.5⟩

/-! ### The index mark -/

theorem measurePeriod_kept (s : State) : Kept s (measurePeriod s) := by
  unfold measurePeriod
  dsimp only
  cases hp : s.stu.periodTimer with
  | some p => exact kept_stu fun k => ⟨k.1, k.2, k.3, k.5 p hp, fun n e => by cases e; exact Nat.zero_le _⟩
  | none => exact kept_stu fun k => ⟨k.1, k.2, k.3, k.4, fun n e => by cases e; exact Nat.zero_le _⟩

theorem synchronize_kept (s : State) : Kept s (synchronize s) :=
  kept_stu fun k => ⟨k.1, Nat.zero_le _, k.3, k.4, fun n e => by cases e; exact Nat.zero_le _⟩

theorem forwardMoves_kept (n : Nat) (s : State) : Kept s (forwardMoves n s) := by
  induction n generalizing s with
  | zero => exact Kept.refl s
  | succ n ih => exact (forwardMove_kept s).trans (ih _)

theorem correct_kept (e : Int) (s : State) : Kept s (correct e s) := by
  unfold correct
  split
  · exact kept_stu fun k => ⟨k.1, Nat.min_le_right _ _, k.3, k.4, k.5⟩
  · exact forwardMoves_kept _ _

theorem indexCheck_kept (s : State) : Kept s (indexCheck s) :=
  kept_ite ((correct_kept _ s).trans (raiseAt_kept _ _ _ _ _ _ _)) (correct_kept _ s)

theorem indexTaken_kept (s : State) : Kept s (indexTaken s) := by
  unfold indexTaken
  dsimp only
  have h : Kept s { s with stu := { s.stu with travel := 0 } } := kept_stu fun k => ⟨Nat.zero_le _, k.2, k.3, k.4, k.5⟩
  exact kept_ite (Kept.refl s) (kept_ite ((h.trans (measurePeriod_kept _)).trans (indexCheck_kept _))
    (h.trans (synchronize_kept _)))

theorem indexRise_kept (s : State) : Kept s (indexRise s) := by
  unfold indexRise
  dsimp only
  have h (f : Filter) : Kept s { s with stu := { s.stu with indexInput := f } } := kept_stu fun k => ⟨k.1, k.2, k.3, k.4, k.5⟩
  exact kept_ite (Kept.refl s) (kept_ite (h _) ((h _).trans (indexTaken_kept _)))

theorem indexFall_kept (s : State) : Kept s (indexFall s) :=
  kept_ite (kept_stu fun k => ⟨k.1, k.2, k.3, k.4, k.5⟩) (Kept.refl s)

/-! ### Rest -/

theorem restJudge_kept (s : State) : Kept s (restJudge s) := by
  unfold restJudge
  refine Kept.trans ?_ (addPendingFault_kept _)
  have h : Kept s { s with msv := { s.msv with atRest := true, offHome := !restsHome s } } :=
    kept_msv fun k => ⟨k.1, k.2, k.3, k.4⟩
  exact h.on_stu fun k => ⟨k.1, k.2, k.3, k.4, k.5⟩

theorem revolutionOver_kept (s : State) (h : s.msv.trip = false) : Kept s (revolutionOver s) :=
  kept_msv fun k => ⟨fun e => absurd (h.symm.trans e) nofun, k.2, k.3, k.4⟩

theorem dryOver_kept (r : SingleRev) (c : EndCause) (s : State) : Kept s (dryOver r c s) := by
  unfold dryOver
  dsimp only
  refine Kept.trans ?_ (mapChannels_kept _ _)
  refine Kept.on_msv ?_ fun k => ⟨k.1, k.2, k.3, k.4⟩
  refine Kept.trans ?_ (finishService_kept _ _ _ _ fun _ => nofun)
  exact kept_msv fun k => ⟨k.1, k.2, k.3, k.4⟩

theorem restByState_kept (r : Option SingleRev) (s : State) : Kept s (restByState r s) := by
  unfold restByState
  split
  · rename_i e
    refine kept_ite (kept_msv fun k => ⟨k.1, ?_, nofun, ?_⟩) (Kept.refl s)
    · rw [k.2, e]; rfl
    · rw [k.4, e]; rfl
  · rename_i e
    exact leaveRun_kept _ _ (.inr (.inl rfl)) (by rw [inRun_iff, e]; rfl)
  · exact homeProgress_kept s
  · rename_i e
    exact kept_ite (enterState_kept _ _ (.inl rfl) (by rw [e]; nofun)) (Kept.refl s)
  · split
    · exact dryOver_kept _ _ _
    · exact Kept.refl s
  · exact Kept.refl s

/-! A panel end leaves the trip alone. -/

theorem raiseD_trip (k : FaultKind) (i : Option Item) (p : Option Nat) (d : Int) (s : State) :
    (raiseD k i p d s).msv.trip = s.msv.trip := by
  unfold raiseD classD
  split
  · simp
  · split <;> simp [setDwell]

theorem passEndAppend_trip (s : State) : (passEndAppend s).msv.trip = s.msv.trip := by
  unfold passEndAppend
  dsimp only
  (repeat' split) <;> simp [raiseD_trip]

theorem endRun_trip (s : State) : (endRun s).msv.trip = s.msv.trip := by
  unfold endRun
  split <;> simp [leaveRun_msv]

theorem countPanel_trip (s : State) : (countPanel s).1.msv.trip = s.msv.trip := by
  unfold countPanel
  dsimp only
  (repeat' split) <;> simp [endRun_trip]

theorem judgeStarved_trip (s : State) : (judgeStarved s).msv.trip = s.msv.trip := by
  unfold judgeStarved
  split <;> rfl

theorem panelEndWith_trip (f : State → State) (hf : ∀ s, (f s).msv.trip = s.msv.trip) (e : PanelEnding) (s : State) :
    (panelEndWith f e s).msv.trip = s.msv.trip := by
  unfold panelEndWith
  split
  · rfl
  · rename_i m _
    dsimp only
    have h1 : (if isRunning (closePanel m e s) then countPanel (closePanel m e s)
        else (closePanel m e s, false)).1.msv.trip = s.msv.trip := by
      split
      · rw [countPanel_trip]; simp
      · simp
    generalize (if isRunning (closePanel m e s) then countPanel (closePanel m e s) else (closePanel m e s, false)) = c at h1
    have h2 : (if m = .tapeOut ∧ e = .complete then passEndAppend c.1 else c.1).msv.trip = s.msv.trip := by
      split
      · rw [passEndAppend_trip]; exact h1
      · exact h1
    split
    · split
      · exact h2
      · rw [hf]; exact h2
    · exact h2

theorem startPanel_trip (m : RunMode) (s : State) : (startPanel m s).msv.trip = s.msv.trip := by
  have h : (openPanel m s).msv.trip = s.msv.trip := by
    unfold openPanel
    simp [setDwell]
  unfold startPanel
  dsimp only
  split
  · rw [judgeStarved_trip]; exact h
  · unfold endEmpty
    rw [panelEndWith_trip id fun _ => rfl]; exact h

theorem panelTest_trip (s : State) : (panelTest s).msv.trip = s.msv.trip := by
  unfold panelTest
  split
  · exact panelEndWith_trip _ (startPanel_trip _) _ _
  · rfl

theorem haltSupervisor_trip (k : FaultKind) (s : State) : (haltSupervisor k s).msv.trip = false := by
  have : (dropTrip false s).msv.trip = false := by
    unfold dropTrip
    split
    · rfl
    · rename_i h; simpa using h
  unfold haltSupervisor
  simp only [enterState_msv]
  split <;> simpa using this

/-- The class S and class H actions drop the trip. -/
theorem haltAction_trip (b : Bool) (k : FaultKind) (s : State) : (haltAction b k s).msv.trip = false := by
  unfold haltAction
  dsimp only
  rw [panelTest_trip]
  split <;> simp [endSingle, haltSupervisor_trip]

theorem restEnds_kept (s : State) (h : s.msv.trip = false) : Kept s (restEnds s) := by
  have raised (k : FaultKind) (d : Int) : Kept s (revolutionOver (raiseFault k .s none none d s)) :=
    (raiseFault_kept _ _ _ _ _ _).trans (revolutionOver_kept _ (by unfold raiseFault raiseAt; exact haltAction_trip _ _ _))
  unfold restEnds
  exact kept_ite (raised _ _) (kept_ite (raised _ _) ((revolutionOver_kept _ h).trans (restByState_kept _ _)))

theorem rest_kept (s : State) : Kept s (rest s) := by
  unfold rest
  dsimp only
  split
  · exact Kept.refl s
  · split
    · exact restJudge_kept s
    · rename_i h
      exact (restJudge_kept s).trans (restEnds_kept _ (by simpa using h))

theorem stall_kept (s : State) : Kept s (stall s) := by
  unfold stall
  split
  · exact kept_ite (raiseFault_kept _ _ _ _ _ _) (Kept.refl s)
  · exact Kept.refl s

/-! ### Machine inputs -/

theorem setInput_kept (i : InputNo) (f : Filter) (s : State) : Kept s (setInput i f s) := kept_wmu fun k => ⟨k.1, k.2, k.3⟩

theorem boardFall_kept (s : State) : Kept s (boardFall s) := by
  unfold boardFall
  have h : Kept s { s with pgs := { s.pgs with boardAway := true, boardChanged := false } } := kept_pgs fun k => ⟨k.1, k.2, k.3⟩
  exact kept_ite (h.trans (raiseFault_kept _ _ _ _ _ _)) h

theorem boardRise_kept (s : State) : Kept s (boardRise s) := by
  unfold boardRise
  refine kept_ite (Kept.trans ?_ (tryStartPanel_kept _)) (Kept.refl s)
  exact kept_pgs fun k => ⟨k.1, k.2, k.3⟩

theorem edgeOwner_kept (r : ReelState) (i : InputNo) (e : Edge) (s : State) : Kept s (edgeOwner r i e s) := by
  unfold edgeOwner
  split
  · exact boardFall_kept s
  · exact boardRise_kept s
  · exact (reportReel_kept _ _).trans (kept_ite (raiseD_kept _ _ _ _ _) (Kept.refl _))
  · exact (reportReel_kept _ _).trans (setDwell_kept _ _)
  · exact Kept.refl s

theorem inputEdge_kept (i : InputNo) (e : Edge) (s : State) : Kept s (inputEdge i e s) := by
  unfold inputEdge
  exact kept_ite (Kept.refl s) ((((setInput_kept _ _ s).trans (edgeWindows_kept _ _ _)).trans (edgeChannels_kept _ _ _)).trans
    (edgeOwner_kept _ _ _ _))

/-! ### The verifier -/

theorem vstrobe_kept (f : Filter) (s : State) : Kept s { s with sqc := { s.sqc with vstrobe := f } } :=
  kept_sqc fun k => ⟨k.1, k.2, k.3, k.4, k.5, k.6⟩

theorem strobe_kept (c : VCode) (s : State) : Kept s (strobe c s) := by
  unfold strobe
  dsimp only
  have h (f : Filter) (v : VerdictWindow) : Kept s { s with sqc := { s.sqc with vstrobe := f, vcode := c, verdict := v } } :=
    kept_sqc fun k => ⟨k.1, k.2, k.3, k.4, k.5, k.6⟩
  exact kept_ite (Kept.refl s) (kept_ite (((h _ _).trans (applyVerdict_kept _ _)).trans (panelTest_kept _)) (h _ _))

theorem strobeFall_kept (s : State) : Kept s (strobeFall s) := kept_ite (vstrobe_kept _ s) (Kept.refl s)

/-! ### Home inputs, feedback, LIMIT and STOP_LINE -/

theorem homeInput_sound {a : Axis} {r : AxisRec} (f : Filter) (h : r.Sound a) : ({ r with homeInput := f } : AxisRec).Sound a :=
  ⟨h.1, h.2, h.3, h.4, h.5, h.6, h.7⟩

theorem setHomeInput_kept (a : Axis) (f : Filter) (s : State) : Kept s (setHomeInput a f s) :=
  setAxisRec_kept _ _ _ fun h => homeInput_sound f (h.axis _)

theorem homeOffset_held {a : Axis} {r : AxisRec} (h : r.Sound a) : positionHeld a r.homeOffset := by
  have := h.offset
  cases a <;> simp [positionHeld, softLimit, Config.xLimit, Config.yLimit, Config.spanLimit] at this ⊢ <;> omega

theorem home_sound {a : Axis} {r : AxisRec} (h : r.Sound a) : (r.home a).Sound a := by
  refine ⟨h.1, h.2, h.3, h.4, h.5, homeOffset_held h, ?_⟩
  unfold AxisRec.home
  dsimp only
  split
  · exact homeOffset_held h
  · exact h.7

theorem turning_sound {a : Axis} {r : AxisRec} (b : Bool) (h : r.Sound a) : (r.turning b).Sound a := by
  unfold AxisRec.turning
  split
  · exact ⟨h.1, h.2, h.3, h.4, h.5, h.6, h.7⟩
  · exact h

theorem homeRise_kept (a : Axis) (s : State) : Kept s (homeRise a s) := by
  unfold homeRise
  dsimp only
  have h := setHomeInput_kept a (.accept true) s
  refine kept_ite (Kept.refl s) (kept_ite ?_ (h.trans (setAxisRec_kept _ _ _ fun k => turning_sound false (k.axis a))))
  refine Kept.trans (Kept.trans (Kept.trans ?_ (searchOver_kept a _)) (startSearches_kept _)) (homeProgress_kept _)
  exact h.trans (setAxisRec_kept _ _ _ fun k => home_sound (k.axis a))

theorem homeFall_kept (a : Axis) (s : State) : Kept s (homeFall a s) := by
  unfold homeFall
  dsimp only
  exact kept_ite ((setHomeInput_kept _ _ _).trans (setAxisRec_kept _ _ _ fun k => turning_sound true (k.axis a))) (Kept.refl s)

theorem feedback_kept (a : TableAxis) (b : Bool) (s : State) : Kept s (feedback a b s) := by
  unfold feedback
  dsimp only
  refine kept_ite (Kept.refl s) (setAxisRec_kept _ _ _ fun k => ?_)
  have r := k.axis (tableAxis a)
  exact ⟨r.1, r.2, r.3, r.4, r.5, r.6, movePosition_held _ _ _⟩

theorem limitInput_kept (f : Filter) (s : State) : Kept s { s with mot := { s.mot with limit := f } } :=
  kept_mot fun k => mot_same k rfl rfl rfl rfl rfl

theorem limitRise_kept (s : State) : Kept s (limitRise s) :=
  kept_ite (Kept.refl s) ((limitInput_kept _ s).trans (raiseFault_kept _ _ _ _ _ _))

theorem limitFall_kept (s : State) : Kept s (limitFall s) := kept_ite (limitInput_kept _ s) (Kept.refl s)

theorem stopLineInput_kept (f : Filter) (s : State) : Kept s { s with fau := { s.fau with stopLine := f } } :=
  kept_fau fun k => ⟨k.1, k.2, k.3, k.4⟩

theorem stopLineRise_kept (s : State) : Kept s (stopLineRise s) :=
  kept_ite (Kept.refl s) ((stopLineInput_kept _ s).trans (raiseFault_kept _ _ _ _ _ _))

theorem stopLineFall_kept (s : State) : Kept s (stopLineFall s) := kept_ite (stopLineInput_kept _ s) (Kept.refl s)

/-! ### The part's own timers -/

theorem dspDone_kept (s : State) : Kept s (dspDone s) := kept_sqc fun k => ⟨k.1, k.2, k.3, k.4, k.5, k.6⟩

theorem boardReleaseEnd_kept (s : State) : Kept s (boardReleaseEnd s) := kept_pgs fun k => ⟨k.1, k.2, k.3⟩

theorem gapPulseEnd_kept (s : State) : Kept s (gapPulseEnd s) := by
  unfold gapPulseEnd
  split
  · exact kept_tmu fun k => ⟨k.1, k.2, k.3, k.4⟩
  · exact Kept.refl s

theorem gapHeldStart_kept (s : State) : Kept s (gapHeldStart s) := by
  unfold gapHeldStart
  split
  · exact kept_tmu fun k => ⟨k.1, k.2, k.3, k.4⟩
  · exact Kept.refl s

theorem flashToggle_kept (s : State) : Kept s (flashToggle s) :=
  kept_fau fun k => ⟨k.1, k.2, k.3, Nat.zero_lt_succ _⟩

theorem settleReached_kept (m : MotionKind) (s : State) : Kept s (settleReached m s) := by
  unfold settleReached
  split
  · split
    · exact plannedSettleEnd_kept _ _
    · exact Kept.refl s
  · exact kept_ite (serviceSettleEnd_kept s) (Kept.refl s)

theorem generatorTick_kept (g : Generator) (s : State) : Kept s (generatorTick g s) := by
  unfold generatorTick
  split
  · exact tickAxis_kept _ _
  · exact Kept.refl s

theorem tickWhen_kept (c : Axis → State → Bool) (a : Axis) (s : State) : Kept s (tickWhen c a s) :=
  kept_ite (tickAxis_kept _ _) (Kept.refl s)

theorem adoptRatesNow_kept (a : Axis) (s : State) : Kept s (adoptRatesNow a s) :=
  kept_ite (Kept.refl s) (setAxisRec_kept _ _ _ fun k => adoptRates_sound (k.axis a))

end Sys2Proof.Machine
end

