-- ==== Sys2Proof/Laws/KeepsRequests.lean ====
section
/-! SUPPORT. What the owners of the requests keep: every answer leaves the blocks of a sound state sound. -/

namespace Sys2Proof.Machine

variable {s t : State}

/-- What keeps every block keeps the blocks of a sound state. -/
theorem Kept.blocks (h : Kept s t) (b : Blocks s) : Blocks t where
  msv := h.msv b.msv
  stu := h.stu b.stu
  wmu := h.wmu b.wmu
  pgs := h.pgs b.pgs
  sqc := h.sqc b.sqc
  tmu := h.tmu b.tmu
  mot := h.mot b.mot
  fau := h.fau b.fau
  lnk := by
    refine ⟨h.queue b.lnk.queue, ?_, ?_, ?_⟩ <;> rw [h.lnk]
    · exact b.lnk.baud
    · exact b.lnk.next
    · exact b.lnk.due
  store := by rw [h.store]; exact b.store

/-- Blocks that differ in the settings alone. -/
theorem Blocks.on_store {m : Store} (b : Blocks s) (h : m.Sound) : Blocks { s with store := m } :=
  ⟨b.1, b.2, b.3, b.4, b.5, b.6, b.7, b.8, b.9, h⟩

theorem clamp_range {lo hi : Nat} (n : Nat) (h : lo ≤ hi) : lo ≤ clamp lo hi n ∧ clamp lo hi n ≤ hi := by
  unfold clamp
  split
  · omega
  · split <;> omega

/-! ### The supervisor -/

theorem sendHome_sound {a : Axis} {r : AxisRec} (h : r.Sound a) : r.sendHome.Sound a := by
  unfold AxisRec.sendHome
  split <;> exact ⟨h.1, h.2, h.3, h.4, h.5, h.6, h.7⟩

theorem homeTaken_kept (s : State) (hs : homeAllowed s = true) : Kept s (homeTaken s) := by
  unfold homeTaken
  dsimp only
  refine Kept.trans ?_ (homeProgress_kept _)
  refine Kept.trans ?_ (startSearches_kept _)
  refine Kept.trans ?_ (mapAxes_kept _ _ fun a r h => sendHome_sound h)
  have k : Kept s { enterState .homing s with msv := { (enterState .homing s).msv with home := some false } } := by
    refine ⟨(enterState_rest _ _).trans rest_msv, fun h => ?_⟩
    have hr : inRun s = false := by
      rw [inRun_iff]
      simp only [homeAllowed, Bool.or_eq_true, beq_iff_eq] at hs
      rcases hs with e | e <;> rw [e] <;> rfl
    rw [enterState_msv]
    refine ⟨h.brake, ?_, nofun, rfl⟩
    simp only [hr, Bool.false_eq_true, if_false]
    rw [h.run, ← inRun_iff, hr]; rfl
  exact k.on_mot fun k => mot_same k rfl rfl rfl rfl rfl

theorem dropChain_kept (s : State) : Kept s (dropChain s) :=
  kept_sqc fun k => ⟨k.1, by simpa using k.2, Nat.zero_le _, k.4, k.5, k.6⟩

theorem storeRun_kept (m : RunMode) (s : State) : Kept s (storeRun m s) := by
  unfold storeRun
  dsimp only
  split
  · exact kept_pgs fun k => ⟨k.1, k.2, k.3⟩
  · have h : Kept s { s with pgs := { s.pgs with number := 0 } } := kept_pgs fun k => ⟨k.1, k.2, k.3⟩
    exact kept_ite (h.trans (startPanel_kept _ _)) (h.trans (setDwell_kept _ _))

theorem chainRun_kept (m : RunMode) (s : State) : Kept s (chainRun m s) :=
  kept_ite (((pendAll_kept _ s).trans (pendAll_kept _ _)).trans (dropChain_kept _)) (judgeStarved_kept _)

theorem tapeRun_kept (m : RunMode) (s : State) : Kept s (tapeRun m s) := by
  unfold tapeRun
  split
  · exact Kept.refl s
  · exact kept_tmu fun k => ⟨k.1, k.2, k.3, k.4⟩
  · have h : Kept s { s with tmu := { s.tmu with mark := none, mapEnd := false, lastTaped := none } } :=
      kept_tmu fun k => ⟨k.1, k.2, k.3, k.4⟩
    exact kept_ite (h.trans (setDwell_kept _ _)) h

theorem runTaken_kept (m : RunMode) (n : Nat) (c : Bool) (s : State) (hs : s.msv.state = .stopped) :
    Kept s (runTaken m n c s) := by
  have h0 : Kept s { s with msv := { s.msv with state := .running .dwell, finishing := false
                                                run := some { mode := m, remaining := n, cont := c } } } :=
    kept_msv fun h => ⟨h.1, rfl, nofun, by rw [home_none h (by rw [hs]; nofun)]; rfl⟩
  unfold runTaken
  dsimp only
  generalize ({ s with msv := { s.msv with state := .running .dwell, finishing := false
                                           run := some { mode := m, remaining := n, cont := c } } } : State) = u at h0 ⊢
  exact (((h0.trans (storeRun_kept m u)).trans (chainRun_kept m _)).trans (tapeRun_kept m _)).trans (runPlan_kept _)

theorem eventStated_kept (f : State → State) (h : Kept s (f s)) : Kept s (eventStated f s) :=
  (h.trans (enqueue_kept _ _)).trans (flushTrailing_kept _)

theorem runRequest_kept (m n c : Byte) (s : State) : Kept s (runRequest m n c s).1 := by
  unfold runRequest
  split
  · rename_i hs
    split
    · exact Kept.refl s
    · split
      · exact Kept.refl s
      · rename_i mode _ _
        have h := (runTaken_kept mode n.toNat (flagOf c) s hs.1).trans (raiseIfReady_kept _)
        exact eventStated_kept (fun t => raiseIfReady (runTaken mode n.toNat (flagOf c) t)) h
  · exact Kept.refl s

theorem homeRequest_kept (s : State) : Kept s (homeRequest s).1 := by
  unfold homeRequest
  split
  · rename_i h
    exact (homeTaken_kept s h).trans (reportState_kept _ _)
  · exact Kept.refl s

theorem stopSingle_kept (s : State) : Kept s (stopSingle s) := by
  unfold stopSingle
  split
  · exact kept_ite (Kept.refl s) (dropTrip_kept _ _)
  · exact Kept.refl s

theorem stopHoming_kept (s : State) : Kept s (stopHoming s) := by
  unfold stopHoming
  split
  · rename_i h
    refine Kept.trans ?_ (activitiesOver_kept _)
    refine Kept.trans ?_ (stopSingle_kept _)
    refine Kept.trans ?_ (mapAxes_kept _ _ fun a r h => stopSearch_sound h)
    exact kept_msv fun k => ⟨k.1, k.2, k.3, by rw [← k.4, h]; rfl⟩
  · exact Kept.refl s

theorem stopOperation_kept (s : State) : Kept s (stopOperation s) := by
  unfold stopOperation
  split
  · rename_i a c e
    have h : Kept s { s with mot := { s.mot with service := some (.jog a false c.stopped) } } :=
      kept_mot fun k => ⟨k.1, nofun⟩
    refine h.trans (setAxisRec_kept _ _ _ fun k => ?_)
    exact stopJog_sound (k.axis a)
  · rename_i a n w m b x y c e
    exact kept_mot fun k => ⟨k.1, fun _ _ _ _ _ _ _ _ h => by
      cases h
      exact k.2 _ _ _ _ _ _ _ _ e⟩
  · refine Kept.trans ?_ (stopSingle_kept _)
    exact kept_mot fun k => ⟨k.1, nofun⟩
  · exact Kept.refl s

theorem stopTaken_kept (s : State) : Kept s (stopTaken s) := by
  unfold stopTaken
  split
  · exact endRun_kept s
  · exact stopHoming_kept s
  · exact stopOperation_kept s
  · exact Kept.refl s

theorem leaveHalted_kept (s : State) : Kept s (leaveHalted s) := by
  unfold leaveHalted
  split
  · rename_i h
    refine enterState_kept _ _ ?_ (by rw [h]; nofun)
    split
    · exact .inr (.inl rfl)
    · exact .inl rfl
  · exact Kept.refl s

theorem clearTaken_kept (s : State) : Kept s (clearTaken s) := by
  unfold clearTaken
  refine Kept.trans ?_ (leaveHalted_kept _)
  have h : Kept s { s with msv := { s.msv with faultPending := false, dwell := { s.msv.dwell with fault := false } } } :=
    kept_msv fun k => ⟨k.1, k.2, k.3, k.4⟩
  exact h.on_fau fun k => ⟨k.1, Nat.zero_le _, nofun, k.4⟩

theorem clearRequest_kept (s : State) : Kept s (clearRequest s).1 := by
  unfold clearRequest
  split
  · exact Kept.refl s
  · exact eventRun_kept clearTaken_kept s

/-! ### The Program Store -/

theorem rejudgeStarved_kept (s : State) : Kept s (rejudgeStarved s) := kept_ite (setDwell_kept _ _) (Kept.refl s)

theorem afterSteps_kept (n : Nat) (s : State) : Kept s (afterSteps n s) := kept_ite (Kept.refl s) (rejudgeStarved_kept s)

theorem cursorOf_range {l : Nat} {p : Word16} {m : Byte} {c : Cursor} (h : cursorOf l p m = some c) : c.position ≤ l := by
  unfold cursorOf at h
  split at h
  · split at h
    · cases h; assumption
    · cases h
  · cases h

/-- Writing records changes the step table alone, which stays in its canonical form, and stops at its end. -/
theorem writeSteps_spec (p : Nat) (l : List StepFields) (s : State) :
    (writeSteps p l s).1 = { s with store := { s.store with steps := (writeSteps p l s).1.store.steps } } ∧
    (Table.wf StepRecord.reset s.store.steps = true → Table.wf StepRecord.reset (writeSteps p l s).1.store.steps = true) ∧
    (p ≤ 1024 → p + (writeSteps p l s).2.1 ≤ 1024) := by
  induction l generalizing p s with
  | nil => exact ⟨rfl, id, id⟩
  | cons f l ih =>
    unfold writeSteps
    split
    · exact ⟨rfl, id, id⟩
    · rename_i hp
      split
      · exact ⟨rfl, id, id⟩
      · split
        · exact ⟨rfl, id, id⟩
        · rename_i r _ _
          obtain ⟨h1, h2, h3⟩ := ih (p + 1) (writeStep p r s)
          refine ⟨?_, fun h => h2 (wf_write h), fun _ => ?_⟩
          · exact h1
          · have := h3 (by simp only [Config.stepMax] at hp; omega)
            show p + ((writeSteps (p + 1) l (writeStep p r s)).2.1 + 1) ≤ 1024
            omega

theorem wrote_range (c : Cursor) (n l : Nat) (h : c.position + n ≤ l) : (c.wrote n).position ≤ l := by
  unfold Cursor.wrote
  split
  · omega
  · exact h

theorem hasRead_range (c : Cursor) (n l : Nat) (h : c.position + n ≤ l) : (c.hasRead n).position ≤ l := by
  unfold Cursor.hasRead
  split
  · exact h
  · omega

theorem readable_range (p c l : Nat) (h : p ≤ l) : p + readable p c l ≤ l := by
  unfold readable
  omega

theorem stepCursorRequest_blocks (p : Word16) (m : Byte) (b : Blocks s) : Blocks (stepCursorRequest p m s).1 := by
  unfold stepCursorRequest
  split
  · exact b
  · rename_i c h
    have k := b.store
    exact b.on_store ⟨k.1, k.2, k.3, k.4, k.5, k.6, Nat.le_succ_of_le (cursorOf_range h), k.8, k.9, k.10, k.11⟩

theorem stepWriteRequest_blocks (l : List StepFields) (b : Blocks s) : Blocks (stepWriteRequest l s).1 := by
  unfold stepWriteRequest
  split
  · obtain ⟨h1, h2, h3⟩ := writeSteps_spec s.store.stepCursor.position l s
    generalize hw : writeSteps s.store.stepCursor.position l s = w at h1 h2 h3
    obtain ⟨t, n, st⟩ := w
    dsimp only at h1 h2 h3 ⊢
    refine (eventRun_kept (afterSteps_kept n) _).blocks ?_
    rw [h1]
    have k := b.store
    exact b.on_store ⟨k.1, k.2, k.3, k.4, h2 k.5, k.6, wrote_range _ _ _ (h3 k.7), k.8, k.9, k.10, k.11⟩
  · exact b

theorem stepReadRequest_blocks (c : Byte) (b : Blocks s) : Blocks (stepReadRequest c s).1 := by
  unfold stepReadRequest
  split
  · exact b
  · have k := b.store
    exact b.on_store ⟨k.1, k.2, k.3, k.4, k.5, k.6, hasRead_range _ _ _ (readable_range _ _ _ k.7), k.8, k.9, k.10, k.11⟩

theorem stepCountRequest_blocks (c : Word16) (b : Blocks s) : Blocks (stepCountRequest c s).1 := by
  unfold stepCountRequest
  split
  · exact b
  · rename_i h
    split
    · exact b
    · have k := b.store
      have g0 : Kept s { s with pgs := { s.pgs with items := [] } } := kept_pgs fun k => ⟨k.1, k.2, rfl⟩
      have g := g0.blocks b
      exact g.on_store ⟨k.1, k.2, k.3, k.4, k.5, by simpa [Config.stepMax] using h, k.7, k.8, k.9, k.10, k.11⟩

theorem spanRequest_blocks (c : Byte) (p : Word16) (b : Blocks s) : Blocks (spanRequest c p s).1 := by
  unfold spanRequest
  split
  · exact b
  · have k := b.store
    exact b.on_store ⟨k.1, k.2, k.3, k.4, k.5, k.6, k.7, wf_write k.8, k.9, k.10, k.11⟩

theorem panelSetup_sound {f : PanelFields} {p : PanelSetup} (h : panelSetupOf f = some p) : p.Sound := by
  simp only [panelSetupOf, Option.ite_none_right_eq_some, Option.some.injEq] at h
  obtain ⟨⟨h1, h2, h3⟩, rfl⟩ := h
  refine ⟨⟨h1, h2⟩, ?_, clamp_range _ (by decide)⟩
  simpa [or_assoc] using h3

theorem panelSetRequest_kept (f : PanelFields) (s : State) : Kept s (panelSetRequest f s).1 := by
  unfold panelSetRequest
  split
  · exact Kept.refl s
  · rename_i p h
    have hp := panelSetup_sound h
    split
    · split
      · exact kept_pgs fun k => ⟨k.1, fun q e => by cases e; exact hp, k.3⟩
      · exact Kept.refl s
    · exact kept_pgs fun k => ⟨hp, nofun, rfl⟩

theorem releaseItems_kept (s : State) : Kept s (releaseItems s) :=
  foldl_kept _ _ fun _ _ => kept_ite (abandonItem_kept _ _ _) (Kept.refl _)

theorem releaseHead_kept (s : State) : Kept s (releaseHead s) := kept_ite (setHead_kept _ _) (Kept.refl s)

theorem releaseTaken_kept (s : State) : Kept s (releaseTaken s) :=
  (((releaseItems_kept s).trans (dropChain_kept _)).trans (releaseHead_kept _)).trans (panelEnd_kept _ _)

theorem releaseRequest_kept (s : State) : Kept s (releaseRequest s).1 := by
  unfold releaseRequest
  split
  · exact event_kept releaseTaken_kept s
  · exact Kept.refl s

/-! ### The Tape Map Unit -/

theorem mapCursorRequest_kept (p : Word16) (m : Byte) (s : State) : Kept s (mapCursorRequest p m s).1 := by
  unfold mapCursorRequest
  split
  · exact Kept.refl s
  · rename_i c h
    exact kept_tmu fun k => ⟨k.1, k.2, k.3, Nat.le_succ_of_le (cursorOf_range h)⟩

theorem tapePositionRequest_kept (p : Word16) (s : State) : Kept s (tapePositionRequest p s).1 := by
  unfold tapePositionRequest
  split
  · exact Kept.refl s
  · rename_i h
    split
    · exact Kept.refl s
    · unfold positionTaken
      dsimp only
      refine Kept.trans ?_ (tapeReport_kept _ _ _)
      refine Kept.trans ?_ (reportReel_kept _ _)
      exact kept_tmu fun k => ⟨k.1, k.2, Nat.le_trans (Nat.le_of_not_lt h) k.2, k.4⟩

/-- Writing entries changes the tape map and its length alone, and stops at its end. -/
theorem writeEntries_spec (p : Nat) (l : List TapeFields) (s : State) :
    (writeEntries p l s).1 = { s with
      tmu := { s.tmu with map := (writeEntries p l s).1.tmu.map, mapLength := (writeEntries p l s).1.tmu.mapLength } } ∧
    (s.tmu.Sound → (writeEntries p l s).1.tmu.Sound) ∧ (p ≤ 4096 → p + (writeEntries p l s).2.1 ≤ 4096) := by
  induction l generalizing p s with
  | nil => exact ⟨rfl, id, id⟩
  | cons f l ih =>
    unfold writeEntries
    split
    · exact ⟨rfl, id, id⟩
    · rename_i hp
      simp only [Config.tapeMax] at hp
      split
      · exact ⟨rfl, id, id⟩
      · rename_i e _
        obtain ⟨h1, h2, h3⟩ := ih (p + 1) (writeEntry p e s)
        refine ⟨h1, fun h => h2 ?_, fun _ => ?_⟩
        · refine ⟨wf_write h.1, ?_, h.3, h.4⟩
          have := h.2
          simp only [writeEntry]
          omega
        · have := h3 (by omega)
          show p + ((writeEntries (p + 1) l (writeEntry p e s)).2.1 + 1) ≤ 4096
          omega

theorem mapWriteRequest_kept (l : List TapeFields) (s : State) : Kept s (mapWriteRequest l s).1 := by
  unfold mapWriteRequest
  split
  · obtain ⟨h1, h2, h3⟩ := writeEntries_spec s.tmu.cursor.position l s
    generalize writeEntries s.tmu.cursor.position l s = w at h1 h2 h3
    obtain ⟨t, n, st⟩ := w
    dsimp only at h1 h2 h3 ⊢
    have e : { t with tmu := { t.tmu with cursor := s.tmu.cursor.wrote n } } =
        { s with tmu := { t.tmu with cursor := s.tmu.cursor.wrote n } } := by rw [h1]
    rw [e]
    exact kept_tmu fun k => ⟨(h2 k).1, (h2 k).2, (h2 k).3, wrote_range _ _ _ (h3 k.4)⟩
  · exact Kept.refl s

theorem mapReadRequest_kept (c : Byte) (s : State) : Kept s (mapReadRequest c s).1 := by
  unfold mapReadRequest
  split
  · exact Kept.refl s
  · exact kept_tmu fun k => ⟨k.1, k.2, k.3, hasRead_range _ _ _ (readable_range _ _ _ k.4)⟩

theorem mapClearRequest_kept (s : State) : Kept s (mapClearRequest s).1 := by
  unfold mapClearRequest
  split
  · exact Kept.refl s
  · refine Kept.trans ?_ (tapeReport_kept _ _ _)
    exact kept_tmu fun k => ⟨rfl, Nat.zero_le _, k.3, k.4⟩

/-! ### The Sequencer Controller -/

theorem stationsRequest_kept (q v r : Byte) (s : State) : Kept s (stationsRequest q v r s).1 := by
  unfold stationsRequest
  split
  · rename_i h
    split
    · exact Kept.refl s
    · dsimp only
      have e : forgetChain q.toNat s = { pendAll (chainItems s) s with sqc := (forgetChain q.toNat s).sqc } := rfl
      have k := pendAll_kept (chainItems s) s
      simp only [stationsFit, Bool.and_eq_true, decide_eq_true_eq] at h
      refine k.on_sqc fun g => ?_
      refine ⟨h.1, ?_, ?_, ?_, ?_, ?_⟩
      · simp [forgetChain]
      · exact g.3
      · exact g.4
      · exact g.5
      · exact g.6
  · exact Kept.refl s

theorem thresholdRequest_blocks (d u : Byte) (b : Blocks s) : Blocks (thresholdRequest d u s).1 := by
  unfold thresholdRequest
  have k := b.store
  have h1 := clamp_range (lo := 1) (hi := 8) d.toNat (by decide)
  have h2 := clamp_range (lo := 2) (hi := 8) u.toNat (by decide)
  exact b.on_store ⟨k.1, k.2, k.3, k.4, k.5, k.6, k.7, k.8, ⟨h1.1, h1.2, h2.1, h2.2⟩, k.10, k.11⟩

theorem changeDispenser_kept (n : Fin 48) (st : DispenserState) (c : DispenserCause) (s : State) :
    Kept s (changeDispenser n st c s) := by
  unfold changeDispenser
  dsimp only
  split
  · refine Kept.trans (Kept.trans ?_ (dispenserReport_kept _ _ _)) (setDwell_kept _ _)
    exact setDispenserRec_kept _ _ _ fun k => ⟨Nat.zero_le _, Nat.zero_le _, k.6 n⟩
  · refine Kept.trans ?_ (dispenserReport_kept _ _ _)
    exact setDispenserRec_kept _ _ _ fun k => ⟨k.4 n, k.5 n, k.6 n⟩

theorem dispenserAct_kept (n : Fin 48) (a : DispenserAction) (s : State) : Kept s (dispenserAct n a s) := by
  unfold dispenserAct
  dsimp only
  split
  · exact Kept.refl s
  · split
    · exact Kept.refl s
    · exact changeDispenser_kept _ _ _ _
    · exact changeDispenser_kept _ _ _ _

theorem placeDispenser_kept (n : Fin 48) (p : Nat) (c : DispenserClass) (s : State) (hp : 1 ≤ p ∧ p ≤ 96) :
    Kept s (placeDispenser n p c s) := by
  unfold placeDispenser
  dsimp only
  have h : Kept s (setDispenserRec n { s.sqc.dispensers[n] with position := p, cls := c } s) :=
    setDispenserRec_kept _ _ _ fun k => ⟨k.4 n, k.5 n, hp⟩
  refine kept_ite h (h.trans (forgetChain_kept _ _ fun _ => rfl))

theorem dispenserRequest_kept (a : DispenserAction) (n p c : Byte) (s : State) :
    Kept s (dispenserRequest a n p c s).1 := by
  unfold dispenserRequest
  split
  · dsimp only
    split
    · exact Kept.refl s
    · rename_i h
      split
      · exact Kept.refl s
      · have hp : 1 ≤ p.toNat ∧ p.toNat ≤ 96 := by
          simp only [dispenserBad, Bool.or_eq_true, Bool.not_eq_true', decide_eq_false_iff_not, not_or] at h
          exact Decidable.not_not.mp h.1
        rename_i m q _ _ _
        exact eventRun_kept (f := fun t => dispenserAct m a (placeDispenser m p.toNat q t))
          (fun t => (placeDispenser_kept m p.toNat q t hp).trans (dispenserAct_kept m a _)) s
  · exact Kept.refl s

theorem readyRequest_kept (n : Byte) (s : State) : Kept s (readyRequest n s).1 := by
  unfold readyRequest
  split
  · exact Kept.refl s
  · rename_i m _
    split
    · exact Kept.refl s
    · refine eventRun_kept (fun t => ?_) s
      unfold readyTaken
      dsimp only
      exact kept_ite (setDispenserRec_kept _ _ _ fun k => ⟨Nat.zero_le _, Nat.zero_le _, k.6 m⟩)
        (changeDispenser_kept _ _ _ _)

/-! ### Service mode -/

theorem enterRequest_kept (s : State) : Kept s (enterRequest s).1 := by
  unfold enterRequest
  split
  · rename_i h
    refine Kept.trans ?_ (reportState_kept _ _)
    refine enterState_kept _ _ (.inr (.inr (.inr rfl))) fun e => ?_
    simp [enterAllowed, e] at h
  · exact Kept.refl s

theorem exitRequest_kept (s : State) : Kept s (exitRequest s).1 := by
  unfold exitRequest
  split
  · rename_i h
    refine Kept.trans ?_ (reportState_kept _ _)
    unfold leaveService
    have e : Kept s (forcesOff s) := mapChannels_kept _ s
    have m : (forcesOff s).msv = s.msv := by simp [forcesOff]
    refine e.trans (enterState_kept _ _ ?_ ?_)
    · split
      · exact .inr (.inl rfl)
      · exact .inl rfl
    · rw [m, h.1]; nofun
  · exact Kept.refl s

theorem takeAxis_kept (a : Axis) (d : Rates → Drive) (p : Bool) (s : State) : Kept s (takeAxis a d p s) := by
  unfold takeAxis
  dsimp only
  have h : Kept s (setAxisRec a (AxisRec.take (d (s.mot.axis a).adoptRates.rates) p (s.mot.axis a).adoptRates) s) :=
    setAxisRec_kept _ _ _ fun k => take_sound (adoptRates_sound (k.axis a))
  exact kept_ite (h.on_mot fun k => mot_same k rfl rfl rfl rfl rfl) h

theorem jogRunRequest_kept (a : Byte) (p : Bool) (s : State) : Kept s (jogRunRequest a p s).1 := by
  unfold jogRunRequest
  split
  · exact Kept.refl s
  · split
    · exact Kept.refl s
    · exact (takeAxis_kept _ _ _ s).on_mot fun k => ⟨k.1, nofun⟩

theorem jogCountedRequest_kept (a : Byte) (w : Word32) (s : State) : Kept s (jogCountedRequest a w s).1 := by
  unfold jogCountedRequest
  split
  · exact Kept.refl s
  · split
    · exact Kept.refl s
    · unfold startCounted
      dsimp only
      split
      · exact enqueue_kept _ _
      · exact (takeAxis_kept _ _ _ s).on_mot fun k => ⟨k.1, nofun⟩

theorem jogHaltRequest_kept (a : Byte) (s : State) : Kept s (jogHaltRequest a s).1 := by
  unfold jogHaltRequest
  split
  · exact Kept.refl s
  · unfold accept haltJog
    split
    · exact setAxisRec_kept _ _ _ fun k => stopJog_sound (k.axis _)
    · exact Kept.refl s

theorem forceRequest_kept (c : Byte) (f : Bool → Bool) (s : State) : Kept s (forceRequest c f s).1 := by
  unfold forceRequest
  split
  · exact Kept.refl s
  · exact setForce_kept _ _ _

theorem dryRequest_kept (s : State) : Kept s (dryRequest s).1 := by
  unfold dryRequest
  split
  · unfold accept startDry
    refine Kept.trans ?_ (raiseTrip_kept _)
    have h : Kept s { s with msv := { s.msv with single := some { kind := .dry, travel := 0, dropped := false } } } :=
      kept_msv fun k => ⟨k.1, k.2, k.3, k.4⟩
    exact h.on_mot fun k => ⟨k.1, nofun⟩
  · exact Kept.refl s

theorem loopRequest_kept (a m : Byte) (w : Word16) (s : State) : Kept s (loopRequest a m w s).1 := by
  unfold loopRequest
  split
  · rename_i t i _ _
    split
    · exact Kept.refl s
    · split
      · exact Kept.refl s
      · unfold accept startLoop
        dsimp only
        have h : Kept s (setAxisRec (tableAxis t) (s.mot.axis (tableAxis t)).adoptRates s) :=
          setAxisRec_kept _ _ _ fun k => adoptRates_sound (k.axis (tableAxis t))
        refine h.trans (loopMove_kept _ _ _ _ _ _ _ _ fun k => ?_)
        have r := k.axis (tableAxis t)
        rw [show (setAxisRec (tableAxis t) (s.mot.axis (tableAxis t)).adoptRates s).mot.axis (tableAxis t) =
          (s.mot.axis (tableAxis t)).adoptRates from by cases t <;> rfl] at r
        have r1 := r.commanded
        have r2 := r.feedback
        rw [positionHeld_table] at r1 r2
        exact ⟨r1, r2⟩
  · exact Kept.refl s

/-! ### Settings -/

theorem landmarkOf_pos {w : Word16} {a : Angle} (h : landmarkOf w = some a) : 0 < a.toNat := by
  unfold landmarkOf angleOf at h
  split at h
  · cases h
  · split at h
    · cases h
      simp only [BitVec.toNat_setWidth]
      omega
    · cases h

theorem landmarks_sound {f : LandmarkFields} {p : LandmarkProfile} {t : Store} (h : landmarksOf f = some p) (k : t.Sound) :
    ({ t with landmarks := p } : Store).Sound := by
  simp only [landmarksOf, Option.bind_eq_bind, Option.bind_eq_some_iff] at h
  obtain ⟨a, ha, b, _, c, _, d, _, e, _, g, _, o, _, h⟩ := h
  split at h
  · rename_i hk
    cases h
    obtain ⟨h1, h2, h3, h4, h5⟩ := hk
    exact ⟨⟨landmarkOf_pos ha, h1, h2, h3, h4, h5⟩, (clamp_range (lo := 0) (hi := 15) _ (by decide)).2,
      clamp_range _ (by decide), clamp_range _ (by decide), k.5, k.6, k.7, k.8, k.9, k.10, k.11⟩
  · cases h

theorem loseSync_kept (s : State) : Kept s (loseSync s) := by
  unfold loseSync
  refine Kept.trans ?_ (mapChannels_kept _ _)
  exact kept_stu fun k => ⟨by simp only [Config.qualifiedTravel]; omega, k.2, k.3, k.4, k.5⟩

theorem landmarksRequest_blocks (f : LandmarkFields) (b : Blocks s) : Blocks (landmarksRequest f s).1 := by
  unfold landmarksRequest
  split
  · exact b
  · rename_i p h
    split
    · exact b
    · unfold landmarksTaken
      dsimp only
      have g : Blocks { s with store := { s.store with landmarks := p },
                               stu := { s.stu with pointer := pointerAbove p s.stu.angle } } := by
        have := (kept_stu fun k => ⟨k.1, k.2, k.3, k.4, k.5⟩ :
          Kept s { s with stu := { s.stu with pointer := pointerAbove p s.stu.angle } }).blocks b
        exact this.on_store (landmarks_sound h b.store)
      split
      · exact g
      · exact (loseSync_kept _).blocks g

theorem channelRequest_kept (f : ChannelFields) (s : State) : Kept s (channelRequest f s).1 := by
  unfold channelRequest
  split
  · split
    · exact setChannelRec_kept _ _ _
    · exact event_kept (fun t => (setChannelRec_kept _ _ _).trans (guardChannel_kept _ _)) s
  · exact Kept.refl s

theorem windowRequest_kept (f : WindowFields) (s : State) : Kept s (windowRequest f s).1 := by
  unfold windowRequest
  split
  · split
    · exact Kept.refl s
    · unfold setWindow
      dsimp only
      refine setWindowRec_kept _ _ _ fun k => ?_
      split
      · exact k.2 _
      · exact Window.adopt_history _ (k.2 _)
  · exact Kept.refl s

theorem windowInputRequest_kept (i c : Byte) (s : State) : Kept s (windowInputRequest i c s).1 := by
  unfold windowInputRequest
  split
  · exact Kept.refl s
  · rename_i n _
    refine kept_wmu fun k => ⟨fun m => ?_, k.2, k.3⟩
    have h := clamp_range (lo := 1) (hi := 15) c.toNat (by decide)
    dsimp only
    by_cases e : n.val = m.val
    · have : n = m := Fin.ext e
      subst this
      simpa using h
    · simpa [Vector.getElem_set, e] using k.1 m

theorem windowSkewRequest_kept (l : Word16) (s : State) : Kept s (windowSkewRequest l s).1 :=
  kept_wmu fun k => ⟨k.1, k.2, (clamp_range (lo := 0) (hi := 1023) l.toNat (by decide)).2⟩

theorem withSettings_sound {a : Axis} {r : AxisRec} (f : AxisFields) (st : OutputStyle) (h : r.Sound a) :
    (r.withSettings a f st).Sound a := by
  have h1 := clamp_range (lo := 1) (hi := 8) f.startRate.toNat (by decide)
  have h2 := clamp_range (lo := clamp 1 8 f.startRate.toNat) (hi := 40) f.topRate.toNat (by omega)
  have h3 := clamp_range (lo := 1) (hi := 8) f.accel.toNat (by decide)
  refine ⟨h.1, ⟨h1, h2, h3⟩, ?_, clamp_range _ (by decide), clamp_range _ (by decide), h.6, h.7⟩
  cases a
  · exact clampInt_range 0 45000 (Int.ofNat f.homeOffset.toNat) (by decide)
  · exact clampInt_range 0 36000 (Int.ofNat f.homeOffset.toNat) (by decide)
  · exact clampInt_range 0 3000 (Int.ofNat f.homeOffset.toNat) (by decide)
  · exact clampInt_range 0 6399 (Int.ofNat f.homeOffset.toNat) (by decide)

theorem axisRequest_kept (f : AxisFields) (s : State) : Kept s (axisRequest f s).1 := by
  unfold axisRequest
  split
  · dsimp only
    split
    · exact Kept.refl s
    · exact setAxisRec_kept _ _ _ fun k => withSettings_sound _ _ (k.axis _)
  · exact Kept.refl s

theorem geometryRequest_blocks (f : GeometryFields) (b : Blocks s) : Blocks (geometryRequest f s).1 := by
  unfold geometryRequest
  have k := b.store
  have h1 := clampInt_range 0 45000 (Int.ofNat f.hx.toNat) (by decide)
  have h2 := clampInt_range 0 36000 (Int.ofNat f.hy.toNat) (by decide)
  exact b.on_store ⟨k.1, k.2, k.3, k.4, k.5, k.6, k.7, k.8, k.9, ⟨h1.1, h1.2, h2.1, h2.2⟩,
    (clamp_range (lo := 0) (hi := 50) f.settle.toNat (by decide)).2,
    (clamp_range (lo := 0) (hi := 20) f.margin.toNat (by decide)).2⟩

theorem baudRequest_blocks (c : Byte) (b : Blocks s) : Blocks (baudRequest c s).1 := by
  unfold baudRequest
  split
  · exact b
  · rename_i h
    exact ⟨b.1, b.2, b.3, b.4, b.5, b.6, b.7, b.8, ⟨b.9.1, b.9.2, fun x e => by cases e; omega, b.9.4⟩, b.10⟩

theorem maskRequest_blocks (m : Byte) (b : Blocks s) : Blocks (maskRequest m s).1 :=
  ⟨b.1, b.2, b.3, b.4, b.5, b.6, b.7, b.8, ⟨b.9.1, b.9.2, b.9.3, b.9.4⟩, b.10⟩

end Sys2Proof.Machine
end

