-- ==== Sys2Proof/Tests/Slice0.lean ====
section
/-! SUPPORT. Tests: the well-formedness checks; the commands on small states, with results that the rules of spec/ give; and for
each statement of Obligations.lean that has hypotheses, states and operands that meet them, clause by clause. -/

namespace Sys2Proof.Tests

open Sys2Proof Sys2Proof.Machine

set_option maxRecDepth 8000

/-! ### Well-formed commands -/

/-- A step record of dispenser 0. -/
def step0 : StepFields := ⟨0, 0, 0, 0, 0, false, false⟩

theorem test_wellFormed_refuses_no_steps : (Instr.stepWrite []).wellFormed = false := by decide
theorem test_wellFormed_refuses_33_steps : (Instr.stepWrite (List.replicate 33 step0)).wellFormed = false := by decide
theorem test_wellFormed_takes_32_steps : (Instr.stepWrite (List.replicate 32 step0)).wellFormed = true := by decide
theorem test_wellFormed_refuses_no_entries : (Instr.tapemapWrite []).wellFormed = false := by decide
theorem test_wellFormed_refuses_33_entries :
    (Instr.tapemapWrite (List.replicate 33 ⟨2, 0, 0⟩)).wellFormed = false := by decide
theorem test_wellFormed_refuses_kind_0 : (Instr.unassignedKind 0).wellFormed = false := by decide
theorem test_wellFormed_refuses_an_assigned_kind : (Instr.unassignedKind 1).wellFormed = false := by decide
theorem test_wellFormed_takes_an_unassigned_kind : (Instr.unassignedKind 6).wellFormed = true := by decide
theorem test_wellFormed_refuses_kind_64 : (Instr.waitingRequest 64).wellFormed = false := by decide

/-! ### Helpers -/

/-- The state that a command leaves. -/
def after (c : Instr) (s : State) : State :=
  match exec c s with
  | .next t => t
  | _ => s

/-- The reply that a command forms. -/
def replyTo (c : Instr) (s : State) : Option (Status × ReplyBody) :=
  (after c s).lnk.reply.map fun r => (r.status, r.body)

/-- The status of that reply. -/
def statusOf (c : Instr) (s : State) : Option Status := (replyTo c s).map (·.1)

/-- The state after reset, in another machine state; with a run in RUNNING and STOPPING. -/
def within (m : MachineState) : State :=
  let s := State.reset
  { s with msv := { s.msv with
      state := m
      run := match m with
        | .running _ => some { mode := .direct, remaining := 1, cont := false }
        | .stopping => some { mode := .direct, remaining := 1, cont := false }
        | _ => none } }

/-- The same with a run of another mode. -/
def running (m : MachineState) (mode : RunMode) : State :=
  let s := within m
  { s with msv := { s.msv with run := some { mode := mode, remaining := 1, cont := false } } }

/-- Changing one block. -/
def onMsv (f : Msv → Msv) (s : State) : State := { s with msv := f s.msv }
def onStu (f : Stu → Stu) (s : State) : State := { s with stu := f s.stu }
def onWmu (f : Wmu → Wmu) (s : State) : State := { s with wmu := f s.wmu }
def onPgs (f : Pgs → Pgs) (s : State) : State := { s with pgs := f s.pgs }
def onSqc (f : Sqc → Sqc) (s : State) : State := { s with sqc := f s.sqc }
def onTmu (f : Tmu → Tmu) (s : State) : State := { s with tmu := f s.tmu }
def onMot (f : Mot → Mot) (s : State) : State := { s with mot := f s.mot }
def onFau (f : Fau → Fau) (s : State) : State := { s with fau := f s.fau }
def onStore (f : Store → Store) (s : State) : State := { s with store := f s.store }
def onLnk (f : Lnk → Lnk) (s : State) : State := { s with lnk := f s.lnk }

/-- Changing one channel, one window, one axis, one dispenser. -/
def onChannel (i : ChannelNo) (f : Channel → Channel) (s : State) : State := setChannelRec i (f s.stu.channels[i]) s
def onWindow (n : Fin 12) (f : Window → Window) (s : State) : State := setWindowRec n (f s.wmu.windows[n]) s
def onAxis (a : Axis) (f : AxisRec → AxisRec) (s : State) : State := setAxisRec a (f (s.mot.axis a)) s
def onDispenser (n : Fin 48) (f : Dispenser → Dispenser) (s : State) : State :=
  setDispenserRec n (f s.sqc.dispensers[n]) s

/-- An input's accepted level. -/
def high (i : InputNo) (s : State) : State :=
  onWmu (fun w => { w with inputs := w.inputs.set i.val { raw := true, accepted := true, candidate := 0 } }) s

/-- A filter that has accepted high. -/
def up : Filter := { raw := true, accepted := true, candidate := 0 }

/-- A work item. -/
def item (step : Fin 1024) : Item := { step := step, image := 0 }

/-- The state with step 0 to n − 1 in the program, none skipped. -/
def program (n : Nat) (s : State) : State := onStore (fun t => { t with stepCount := n }) s

/-- The trip on, the brake released. -/
def tripOn (s : State) : State := onMsv (fun m => { m with trip := true, brake := false }) s

/-! ### Commands -/

theorem test_home_begins_homing : (after .home State.reset).msv.state = .homing := by decide
theorem test_home_wrong_state : statusOf .home (within .halted) = some .wrongState := by decide
theorem test_identify_name : replyTo .identify State.reset =
    some (.ok, .identity [90, 79, 68, 87, 69, 78, 32, 65, 88, 54] 1 1024 4096 48 12 9 16 24 240 1) := by decide
theorem test_setBaud_3 : (after (.setBaud 3) State.reset).lnk.baudNext = some 3 := by decide
theorem test_setBaud_4 : statusOf (.setBaud 4) State.reset = some .badValue := by decide
theorem test_setBaud_takes_effect_after_its_reply :
    (after .baudSwitch (after .replySend (after (.setBaud 3) State.reset))).lnk.baud = 3 := by decide
theorem test_reportMask : (after (.reportMask 255) State.reset).lnk.mask = 255 := by decide
theorem test_landmarks_in_order : statusOf (.setLandmarks ⟨1, 2, 3, 4, 5, 6, 0, 16, 0, 0⟩) State.reset = some .ok := by decide
theorem test_landmarks_out_of_order :
    statusOf (.setLandmarks ⟨1, 3, 2, 4, 5, 6, 0, 4, 15000, 200⟩) State.reset = some .badValue := by decide
theorem test_landmarks_clamped :
    ((after (.setLandmarks ⟨1, 2, 3, 4, 5, 4095, 0, 16, 0, 3000⟩) State.reset).store.landmarks.tolerance,
      (after (.setLandmarks ⟨1, 2, 3, 4, 5, 4095, 0, 16, 0, 3000⟩) State.reset).store.landmarks.nominal,
      (after (.setLandmarks ⟨1, 2, 3, 4, 5, 4095, 0, 16, 0, 3000⟩) State.reset).store.landmarks.stall) =
      (15, 2000, 2000) := by decide
theorem test_channel_limit_clamped :
    (after (.setChannel ⟨0, 0, 128, 0, 1600, 0, 3⟩) State.reset).stu.channels[0].active = ⟨.angle 128 1600, 5⟩ := by decide
theorem test_channel_staged_in_a_run :
    (after (.setChannel ⟨0, 0, 1, 0, 2, 0, 300⟩) (within (.running .cycling))).stu.channels[0].staged =
      some ⟨.angle 1 2, 300⟩ := by decide
theorem test_window_part : (after (.setWindowWindow ⟨0, 1, 9, 0, 100, 200, 0, 17⟩) State.reset).wmu.windows[0].active =
    ⟨.part, some 0, .rise, 100, 200, some .w, 16⟩ := by decide
theorem test_window_role_held_twice :
    statusOf (.setWindowWindow ⟨1, 1, 0, 0, 100, 200, 0, 0⟩)
      (after .replySend (after (.setWindowWindow ⟨0, 1, 0, 0, 1, 2, 0, 0⟩) State.reset)) = some .badValue := by decide
theorem test_window_input : (after (.setWindowInput 11 0) State.reset).wmu.filterCounts[11] = 1 := by decide
theorem test_window_skew : (after (.setWindowSkew 1024) State.reset).wmu.skewLimit = 1023 := by decide
theorem test_axis_rates_clamped :
    (after (.setAxis ⟨0, 9, 3, 0, 0, 45001, 0, 0⟩) State.reset).mot.x.staged = ⟨8, 8, 1⟩ := by decide
theorem test_axis_offset_clamped :
    (after (.setAxis ⟨0, 9, 3, 0, 0, 45001, 0, 0⟩) State.reset).mot.x.homeOffset = 45000 := by decide
theorem test_stations_need_eight : statusOf (.setStationsMap 7 2 3) State.reset = some .badValue := by decide
theorem test_stations_rebuild : (after (.setStationsMap 8 2 3) State.reset).sqc.chain = List.replicate 8 .unknown := by decide
theorem test_thresholds_clamped :
    replyTo (.setStationsThreshold 0 1) State.reset = some (.ok, .thresholds 1 2) := by decide
theorem test_dispenser_enabled : (after (.setDispenserEnable 5 6 0) State.reset).sqc.dispensers[5].state = .enabled := by decide
theorem test_dispenser_beyond_v : statusOf (.setDispenserEnable 5 50 0) State.reset = some .badValue := by decide
theorem test_dispenser_kept : (after (.setDispenserKeep 47 60 1) State.reset).sqc.dispensers[47].position = 60 := by decide
theorem test_dispenser_disabled : statusOf (.setDispenserDisable 47 96 0) State.reset = some .ok := by decide
theorem test_span : replyTo (.setSpan 15 4000) State.reset = some (.ok, .span 15 3000) := by decide
theorem test_geometry : replyTo (.setGeometry ⟨50000, 0, 60, 30⟩) State.reset = some (.ok, .geometry 45000 0 50 20) := by decide
theorem test_step_cursor : statusOf (.stepCursor 1024 0) State.reset = some .badValue := by decide
theorem test_step_write :
    (after (.stepWrite [⟨100, 200, 1, 2, 3, true, false⟩]) State.reset).store.steps =
      [(0, ⟨100, 200, 1, 2, 3, true, false⟩)] := by decide
theorem test_step_write_dispenser_48 :
    replyTo (.stepWrite [step0, ⟨0, 0, 0, 0, 48, false, false⟩]) State.reset = some (.badValue, .number 1) := by decide
theorem test_step_read_reset_record :
    replyTo (.stepRead 1) State.reset = some (.ok, .stepRecords 0 [(StepRecord.reset, true)]) := by decide
theorem test_step_count : statusOf (.stepCount 1025) State.reset = some .badValue := by decide
theorem test_panel_set_no_image_enabled :
    statusOf (.panelSet ⟨1, ⟨0, 0, 2⟩, ⟨0, 0, 1⟩, ⟨0, 0, 0⟩, ⟨0, 0, 0⟩, 0, 0, 3⟩) State.reset = some .badValue := by decide
theorem test_panel_set_takes_bit_0 :
    statusOf (.panelSet ⟨1, ⟨0, 0, 3⟩, ⟨0, 0, 1⟩, ⟨0, 0, 0⟩, ⟨0, 0, 0⟩, 0, 0, 3⟩) State.reset = some .ok := by decide
theorem test_item_read_image_5 : statusOf (.itemRead 0 5 1) State.reset = some .badValue := by decide
theorem test_map_cursor : (after (.tapemapCursorMap 4095 1) State.reset).tmu.cursor = ⟨4095, .all⟩ := by decide
theorem test_tape_position_beyond_the_map : statusOf (.tapemapCursorTape 1) State.reset = some .badValue := by decide
theorem test_map_write_length : (after (.tapemapWrite [⟨2, 0, 0⟩, ⟨3, 0, 0⟩]) State.reset).tmu.mapLength = 2 := by decide
theorem test_map_write_image_0 :
    replyTo (.tapemapWrite [⟨1, 0, 0⟩]) State.reset = some (.badValue, .tapeWritten 0 0) := by decide
theorem test_map_read : statusOf (.tapemapRead 0) State.reset = some .badValue := by decide
theorem test_map_clear_keeps_the_position :
    (after .tapemapClear (onTmu (fun t => { t with position := 3, mapLength := 5 }) State.reset)).tmu.position = 3 := by decide
theorem test_run_needs_a_program : statusOf (.run 0 1 0) (within .stopped) = some .wrongState := by decide
theorem test_run_waits_for_a_board :
    (after (.run 0 1 0) (program 1 (within .stopped))).msv.dwell = { DwellSet.none with board := true } := by decide
theorem test_stop_ends_a_dwell : (after .stop (within (.running .dwell))).msv.state = .stopped := by decide
theorem test_stop_in_cycling : (after .stop (within (.running .cycling))).msv.state = .stopping := by decide
theorem test_clearFault_without_home : (after .clearFault (within .halted)).msv.state = .unhomed := by decide
theorem test_silence : (after .silence (after .limitRise State.reset)).fau.horn = false := by decide
theorem test_ackWarnings : replyTo .ackWarnings (onFau (fun f => { f with warnCount := 7 }) State.reset) =
    some (.ok, .number 7) := by decide
theorem test_ready_of_a_disabled : statusOf (.dispenserReady 0) State.reset = some .wrongState := by decide
theorem test_release_without_a_panel : statusOf .panelRelease (within .stopped) = some .wrongState := by decide
theorem test_chain_read_beyond_q : statusOf (.chainRead 57 1) State.reset = some .badValue := by decide
theorem test_redo_read : replyTo .redoRead State.reset = some (.ok, .redo []) := by decide
theorem test_capture_read : replyTo .captureRead State.reset = some (.ok, .capture .reset) := by decide
theorem test_service_enter : (after .serviceEnter State.reset).msv.state = .service := by decide
theorem test_service_exit : (after .serviceExit (within .service)).msv.state = .unhomed := by decide
theorem test_jog_outside_service : statusOf (.jogRunPositive 0) State.reset = some .notInService := by decide
theorem test_jog_positive : (after (.jogRunPositive 0) (within .service)).mot.x.drive = .jog true 2 false := by decide
theorem test_jog_negative : (after (.jogRunNegative 3) (within .service)).mot.cAxis = some .rot := by decide
theorem test_jog_counted_profile :
    (after (.jogCounted 1 5) (within .service)).mot.y.drive = .profile true [2, 1, 2] := by decide
theorem test_jog_halt : statusOf (.jogHalt 4) (within .service) = some .badValue := by decide
theorem test_force_held_off_for_cut :
    replyTo (.forceChannelSet 1) (within .service) = some (.ok, .force true false) := by decide
theorem test_force_feed_jams_the_reel : (after (.forceChannelSet 8) (within .service)).tmu.jammed = true := by decide
theorem test_force_toggles : replyTo (.forceChannelToggle 0) (within .service) = some (.ok, .force true true) := by decide
theorem test_force_clears : replyTo (.forceChannelClear 0) (within .service) = some (.ok, .force false false) := by decide
theorem test_loop_test_first_move :
    (after (.loopTest 0 0 1) (within .service)).mot.service = some (.loop .x true 2 0 0 0 0 .none) := by decide
theorem test_dry_cycle : (after .dryCycle (within .service)).msv.trip = true := by decide
theorem test_unassigned_kind : statusOf (.unassignedKind 6) State.reset = some .badKind := by decide
theorem test_unassigned_service_kind : statusOf (.unassignedKind 50) State.reset = some .notInService := by decide
theorem test_waiting_request :
    (after (.waitingRequest 1) (after .identify State.reset)).lnk.waiting = some 1 := by decide
theorem test_busy :
    (after .busy (after .replySend (after (.waitingRequest 1) (after .identify State.reset)))).lnk.reply =
      some ⟨129, .busy, .empty⟩ := by decide
theorem test_report_send : (after .reportSend State.reset).lnk.line =
    some (.report (.state ⟨.unhomed, false, .none, none⟩) false) := by decide

/-- SYNC, LEN 1, KIND 1, CHECK 254: the frame of IDENTIFY (R174). -/
theorem test_frame_of_identify :
    ([165, 1, 1, 254].foldl (fun s b => after (.receivedByte b) s) State.reset).lnk.inService = some 1 := by decide

/-- A SYNC within a discarded frame begins the next one (R175). -/
theorem test_rescan :
    ([165, 2, 165, 1, 1].foldl (fun s b => after (.receivedByte b) s) State.reset).lnk.framer = .check 1 := by decide
theorem test_frame_discard : (after (.frameDiscard 0)
    (after (.receivedByte 165) State.reset)).lnk.framer = .hunt := by decide
theorem test_frame_gap : (after .frameGapTimeout (after (.receivedByte 165) State.reset)).lnk.framer = .hunt := by decide
theorem test_framing_error : (after .framingError (after (.receivedByte 165) State.reset)).lnk.framer = .hunt := by decide
theorem test_full_reset : (after .fullReset (within .halted)).msv = Msv.reset := by decide
theorem test_restart_keeps_the_angle :
    (after .restart (onStu (fun u => { u with angle := 77 }) State.reset)).stu.angle = 77 := by decide
theorem test_forward_count_wraps :
    (after .forwardCount (onStu (fun u => { u with angle := 4095 }) State.reset)).stu.angle = 0 := by decide
theorem test_reverse_count_wraps : (after .reverseCount State.reset).stu.angle = 4095 := by decide
theorem test_reverse_count_raises :
    (after .reverseCount (onStu (fun u => { u with excursion := 64 }) (within (.running .cycling)))).msv.state = .halted := by
  decide
theorem test_index_synchronizes : (after .indexMark State.reset).stu.synced = true := by decide
theorem test_index_with_a_standing_excursion_engages_nothing :
    (after .indexMark (tripOn (onStu (fun u => { u with excursion := 65 }) State.reset))).stu.engaged = false := by decide
theorem test_index_with_the_trip_on_engages :
    (after .indexMark (tripOn (onStu (fun u => { u with excursion := 64 }) State.reset))).stu.engaged = true := by decide
theorem test_stop_line_halts : (after .stopLineRise State.reset).msv.state = .halted := by decide
theorem test_limit_unhomes : (after .limitRise State.reset).fau.capture.locked = true := by decide
theorem test_board_away : (after .boardPresentFall (high 6 State.reset)).pgs.boardAway = true := by decide
theorem test_board_changed :
    (after .boardPresentRise (onPgs (fun p => { p with boardAway := true }) State.reset)).pgs.boardChanged = true := by decide
theorem test_tape_end_reports_unthreaded : (after .tapeEndRise State.reset).lnk.queue.length = 2 := by decide
theorem test_home_rise_homes_x :
    (after (.homeInputRise .x) (after .home State.reset)).mot.x.state = .idle := by decide
theorem test_home_search_backs_off :
    (after .home (onMot (fun m => { m with x := { m.x with homeInput := up } }) State.reset)).mot.x.drive =
      .search true 2 0 false false := by decide
theorem test_feedback_count : (after (.feedbackCount .y false) State.reset).mot.y.feedback = -1 := by decide
theorem test_generator_tick_of_a_search :
    (after (.generatorTick .a) (after .home State.reset)).mot.x.commanded = -2 := by decide
theorem test_flash_toggles : (after .flashClockToggle State.reset).fau.flashOn = false := by decide
theorem test_rest_of_a_moving_shaft :
    (after .rest (onMsv (fun m => { m with atRest := false }) State.reset)).msv.atRest = true := by decide
theorem test_overrun_locks :
    (after (.overrunLimitReached 0) (onChannel 0 (fun c => { c with command := true }) State.reset)).stu.channels[0].locked =
      true := by decide
theorem test_step_runs_the_front_command : step (State.reset.withPending [.stop]) = exec .stop State.reset := rfl

/-! The bytes of a reply and a report, written out from the central layouts of R185. -/

theorem test_busy_frame : replyFrame ⟨129, .busy, .empty⟩ = [165, 2, 129, 5, 120] := by decide
theorem test_state_report_frame : sentFrame (after .reportSend State.reset) =
    some [165, 8, 64, 0, 0, 255, 0, 0, 255, 255, 187] := by decide
theorem test_fault_payload :
    faultPayload { kind := .stopLine, cls := .h, item := none, chainPos := none, angle := 0x234, synced := true
                   cycle := 0x1234, detail := 1 } true false =
      [6, 14, 4, 0, 0, 0, 0x34, 2, 0x34, 0x12, 1, 0, 0, 0] := by decide
theorem test_item_code : itemCode (some { step := 5, image := 2 }) = 0xA005 := by decide


/-! ### States and operands that meet the hypotheses: the queue, the link, the requests that read -/

/-- A link that serves IDENTIFY, its reply formed. -/
def serving : State := after .identify State.reset

/-- The same with another request waiting. -/
def serving2 : State := after (.waitingRequest 63) serving

/-- The stop line accepted high; LIMIT high; channel 0 locked. -/
def stopLineHigh (s : State) : State := onFau (fun f => { f with stopLine := up }) s
def limitHigh (s : State) : State := onMot (fun m => { m with limit := up }) s
def lockedState (i : ChannelNo) (s : State) : State := onChannel i (fun c => { c with locked := true }) s

/-- A panel open for runs of a mode. -/
def panelOpen (m : RunMode) (s : State) : State := onPgs (fun p => { p with panel := some m }) s

theorem witness_StepRunsTheFrontCommand :
    (State.reset.withPending [.stop]).pending = [.stop] ∧ State.reset.pending = [] := by decide

theorem witness_RestartResetsAllButWhatItKeeps :
    (linkReady State.reset ∧ State.reset.fau.stopLine.accepted = false ∧ State.reset.pgs.boardRelease = none) ∧
    (let s := onPgs (fun p => { p with boardRelease := some 99 }) State.reset;
      linkReady s ∧ s.fau.stopLine.accepted = false ∧ s.pgs.boardRelease = some 99) ∧
    (linkReady (stopLineHigh State.reset) ∧ (stopLineHigh State.reset).fau.stopLine.accepted = true) := by decide

theorem witness_ReportsAreQueuedAndEventsClosed :
    (let r : Report := .state .reset;
      State.reset.lnk.mask.getLsbD r.bit = true ∧ State.reset.lnk.queue.length < 24) ∧
    (let r : Report := .cycle 0 none .blank 0 false [];
      State.reset.lnk.mask.getLsbD r.bit = false) ∧
    (let r : Report := .state .reset;
      let s := onLnk (fun l => { l with queue := List.replicate 24 r }) State.reset
      s.lnk.mask.getLsbD r.bit = true ∧ 24 ≤ s.lnk.queue.length) ∧
    ((within .halted).lnk.trailing = [] ∧ (within .halted).msv.state ≠ (stateView State.reset).state) ∧
    (let t := onMsv (fun m => { m with finishing := true }) State.reset;
      t.lnk.trailing = [] ∧ t.msv.finishing ≠ (stateView State.reset).finishing) ∧
    (let t := onMsv (fun m => { m with dwell := { m.dwell with tape := true } }) State.reset;
      t.lnk.trailing = [] ∧ t.msv.dwell ≠ (stateView State.reset).dwell) ∧
    (State.reset.lnk.trailing = [] ∧ State.reset.msv.state = (stateView State.reset).state ∧
      State.reset.msv.finishing = (stateView State.reset).finishing ∧
      State.reset.msv.dwell = (stateView State.reset).dwell) := by decide

theorem witness_TheLinkTakesOneRequestAtATime :
    encodeRequest .identify = some (1, []) ∧
    (serving.lnk.baudDue = none ∧ serving.lnk.inService = some 1 ∧ serving.lnk.waiting = none) ∧
    (serving2.lnk.baudDue = none ∧ serving2.lnk.inService = some 1 ∧ serving2.lnk.waiting = some 63) ∧
    (1 ≤ (1 : Byte).toNat ∧ (63 : Byte).toNat ≤ 63) ∧
    (let s := after .replySend serving2;
      s.lnk.baudDue = none ∧ s.lnk.inService = none ∧ s.lnk.waiting = some 63) ∧
    (serving.lnk.inService.isSome = true ∧ State.reset.lnk.waiting = none) ∧
    (serving.lnk.reply = some ⟨129, .ok, .identity [90, 79, 68, 87, 69, 78, 32, 65, 88, 54] 1 1024 4096 48 12 9 16 24 240 1⟩) ∧
    (State.reset.lnk.baudDue = none ∧ State.reset.lnk.reply = none ∧ State.reset.lnk.queue = [.state .reset]) ∧
    (onLnk (fun l => { l with queue := [] }) State.reset).lnk.queue = [] := by decide

/-- In the state after reset the link is ready, which is the hypothesis of IdentifyNamesThePart and StatusShowsASnapshot. -/
theorem witness_IdentifyNamesThePart_StatusShowsASnapshot : linkReady State.reset := by decide

theorem witness_CaptureReadShowsTheRecord : linkReady State.reset ∧ causePresent State.reset = false := by decide

theorem witness_ChainAndRedoAreRead :
    linkReady State.reset ∧ (0 : Byte).toNat = 0 ∧ 32 < (33 : Byte).toNat ∧ State.reset.sqc.q < (57 : Byte).toNat ∧
    (1 ≤ (1 : Byte).toNat ∧ (1 : Byte).toNat ≤ State.reset.sqc.q) ∧
    (1 ≤ (32 : Byte).toNat ∧ (32 : Byte).toNat ≤ 32 ∧ 1 ≤ (56 : Byte).toNat ∧ (56 : Byte).toNat ≤ State.reset.sqc.q) := by
  decide

theorem witness_StepsAndTapeEntriesAreReadAtTheCursor :
    (linkReady State.reset ∧ State.reset.store.stepCursor.position ≤ 1024 ∧ State.reset.tmu.cursor.position ≤ 4096) ∧
    ((0 : Byte).toNat = 0 ∧ 32 < (33 : Byte).toNat ∧ 1 ≤ (1 : Byte).toNat ∧ (32 : Byte).toNat ≤ 32) ∧
    (let s := onStore (fun t => { t with stepCursor := ⟨1024, .all⟩ }) State.reset;
      linkReady s ∧ s.store.stepCursor.position ≤ 1024) ∧
    (let s := onTmu (fun t => { t with cursor := ⟨4096, .all⟩ }) State.reset;
      linkReady s ∧ s.tmu.cursor.position ≤ 4096) := by decide

theorem witness_ItemsAreReadAndCounted :
    linkReady State.reset ∧ 1023 < (1024 : Word16).toNat ∧ (0 : Byte).toNat = 0 ∧ 4 < (5 : Byte).toNat ∧
    32 < (33 : Byte).toNat ∧ ((1023 : Word16).toNat ≤ 1023 ∧ 1 ≤ (1 : Byte).toNat ∧ (32 : Byte).toNat ≤ 32) ∧
    ((1 : Byte).toNat = (0 : Fin 4).val + 1 ∧ (4 : Byte).toNat = (3 : Fin 4).val + 1) ∧
    (program 1024 State.reset).store.stepCount ≤ 1024 := by decide

/-! ### The requests that set -/

/-- The order and the ranges that SET_LANDMARKS asks. -/
def goodLandmarks (f : LandmarkFields) : Bool :=
  decide (1 ≤ f.close.toNat ∧ f.close.toNat < f.commit.toNat ∧ f.commit.toNat < f.opening.toNat ∧
    f.opening.toNat < f.index.toNat ∧ f.index.toNat < f.fire.toNat ∧ f.fire.toNat < f.verifyClose.toNat ∧
    f.verifyClose.toNat ≤ 4095 ∧ f.offset.toNat ≤ 4095)

theorem witness_SetLandmarksIsTakenAsAWhole :
    let at0 : LandmarkFields := ⟨1, 2, 3, 4, 5, 4095, 0, 4, 15000, 200⟩
    let at4095 : LandmarkFields := { at0 with offset := 4095 }
    goodLandmarks { at0 with close := 0 } = false ∧ goodLandmarks { at0 with verifyClose := 4096 } = false ∧
    goodLandmarks { at0 with offset := 4096 } = false ∧ goodLandmarks at0 = true ∧ goodLandmarks at4095 = true ∧
    (linkReady (within .homing) ∧ (within .homing).msv.state = .homing) ∧
    (linkReady (within .stopping) ∧ inRun (within .stopping) = true) ∧
    (linkReady (within .stopped) ∧ (within .stopped).msv.state = .stopped ∧
      at4095.offset.toNat ≠ (within .stopped).store.landmarks.offset.toNat) ∧
    (linkReady State.reset ∧ State.reset.msv.state ≠ .homing ∧ inRun State.reset = false ∧
      State.reset.msv.state ≠ .stopped) ∧
    (at0.offset.setWidth 12 = State.reset.store.landmarks.offset ∧
      at4095.offset.setWidth 12 ≠ State.reset.store.landmarks.offset) := by decide

theorem witness_SetChannelStagesOrAdopts :
    let angles : ChannelFields := ⟨8, 0, 255, 15, 0, 0, 300⟩
    let edges : ChannelFields := ⟨0, 1, 11, 1, 4096, 0, 2001⟩
    (angles.mode = 0 ∧ (angles.byte3 ++ angles.byte2).toNat = (4095 : Angle).toNat ∧ angles.word4.toNat = (0 : Angle).toNat) ∧
    (4095 < ((16 : Byte) ++ (0 : Byte)).toNat ∧ 4095 < (4096 : Word16).toNat ∧ (0 : Byte) ++ (7 : Byte) = (7 : Word16)) ∧
    (edges.mode = 1 ∧ edges.byte2.toNat = (11 : InputNo).val ∧ edges.byte3 = 1) ∧
    (11 < (12 : Byte).toNat ∧ 1 < (2 : Byte).toNat) ∧
    (linkReady State.reset ∧ State.reset.lnk.trailing = [] ∧ 8 < (9 : Byte).toNat ∧
      channelSettingsOf { angles with mode := 2 } = none) ∧
    (angles.channel.toNat = (8 : ChannelNo).val ∧ channelSettingsOf angles = some ⟨.angle 4095 0, 300⟩ ∧
      edges.channel.toNat = (0 : ChannelNo).val ∧ channelSettingsOf edges = some ⟨.edge 11 .fall 4095 1, 2000⟩) ∧
    (linkReady (within .stopping) ∧ inRun (within .stopping) = true) ∧
    (inRun State.reset = false ∧ State.reset.stu.channels[0].command = false ∧
      channelOutput 0 State.reset.stu.channels[0] = false) := by decide

theorem witness_SetWindowTakesItsThreeForms :
    let f : WindowFields := ⟨11, 8, 11, 3, 4095, 0, 0, 16⟩
    let part : WindowFields := { f with window := 0, role := 1 }
    let w : WindowSettings := ⟨.watch, some 11, .low, 4095, 0, some .w, 16⟩
    let held := onWindow 11 (fun x => { x with staged := some { WindowSettings.reset with role := .part } }) State.reset
    windowSettingsOf f = some w ∧ windowSettingsOf part = some { w with role := .part, input := some 0 } ∧
    linkReady State.reset ∧ 11 < (12 : Byte).toNat ∧ windowSettingsOf { f with role := 9 } = none ∧
    f.window.toNat = (11 : Fin 12).val ∧
    (linkReady held ∧ held.wmu.windows[11].staged = some { WindowSettings.reset with role := .part }) ∧
    (∀ m : Fin 12, m ≠ 0 → State.reset.wmu.windows[m].active.role ≠ .part ∧ State.reset.wmu.windows[m].staged = none) ∧
    (linkReady (within (.running .cycling)) ∧ inRun (within (.running .cycling)) = true ∧ inRun State.reset = false) ∧
    (11 : Byte).toNat = (11 : InputNo).val := by decide

theorem witness_SetAxisTakesItsSettings :
    let f : AxisFields := ⟨3, 2, 20, 2, 0, 0, 50000, 8⟩
    let moving := onAxis .rot (fun r => { r with state := .moving }) State.reset
    3 < (4 : Byte).toNat ∧ 1 < (2 : Byte).toNat ∧ f.axis.toNat = 3 ∧ f.style.toNat = 0 ∧
    (linkReady moving ∧ moving.mot.rot.state = .moving ∧ moving.mot.rot.searchLimit ≠ max 1 (0 : Word16).toNat) ∧
    (linkReady State.reset ∧ f.style.toNat = 0 ∧ State.reset.mot.rot.style = .stepDir ∧
      Int.ofNat (min 6399 f.homeOffset.toNat) = State.reset.mot.rot.homeOffset ∧
      max 1 f.searchLimit.toNat = State.reset.mot.rot.searchLimit) ∧
    (State.reset.mot.rot.state = .unhomed ∧ State.reset.msv.state ≠ .homing ∧ inRun State.reset = false) ∧
    (linkReady (within .homing) ∧ (within .homing).msv.state = .homing ∧ linkReady (within .stopping) ∧
      inRun (within .stopping) = true) := by decide

/-- One dispenser enabled at position 1. -/
def enabled0 (s : State) : State := onDispenser 0 (fun d => { d with state := .enabled }) s

theorem witness_SetStationsRebuildsTheChain :
    linkReady (enabled0 State.reset) ∧ ¬ 8 ≤ (7 : Byte).toNat ∧
    (8 ≤ (8 : Byte).toNat ∧ 2 ≤ (2 : Byte).toNat ∧ (2 : Byte).toNat < (3 : Byte).toNat ∧ (3 : Byte).toNat < (8 : Byte).toNat) ∧
    (8 ≤ (96 : Byte).toNat ∧ (96 : Byte).toNat ≤ 96 ∧ (94 : Byte).toNat < (95 : Byte).toNat ∧
      (95 : Byte).toNat < (96 : Byte).toNat) ∧
    (∀ n : Fin 48, (enabled0 State.reset).sqc.dispensers[n].state ≠ .disabled → n = 0) ∧
    ((enabled0 State.reset).sqc.dispensers[0].position = 1 ∧ 1 < (2 : Byte).toNat) ∧
    inRun (enabled0 State.reset) = false ∧ Table.wf ItemRecord.fresh (enabled0 State.reset).pgs.items = true ∧
    (linkReady (within .stopping) ∧ inRun (within .stopping) = true ∧
      ∀ n : Fin 48, (within .stopping).sqc.dispensers[n].state = .disabled) := by decide

theorem witness_DispensersAreSetAndMadeReady :
    (linkReady State.reset ∧ 47 < (48 : Byte).toNat ∧ 1 < (2 : Byte).toNat ∧ (47 : Byte).toNat = (47 : Fin 48).val) ∧
    ((0 : Byte).toNat = 0 ∧ 96 < (97 : Byte).toNat ∧ State.reset.sqc.v ≤ (50 : Byte).toNat ∧
      (49 : Byte).toNat < State.reset.sqc.v ∧ ∀ m : Fin 48, State.reset.sqc.dispensers[m].state = .disabled) ∧
    (let s := enabled0 State.reset;
      linkReady s ∧ s.sqc.dispensers[0].state ≠ .disabled ∧ s.sqc.dispensers[0].position = (1 : Byte).toNat) ∧
    (let s := within (.running .cycling);
      linkReady s ∧ inRun s = true ∧ s.sqc.dispensers[47].position = (48 : Byte).toNat ∧
        s.sqc.dispensers[47].position ≠ (49 : Byte).toNat ∧ s.sqc.dispensers[47].cls = .plain) ∧
    (let s := enabled0 State.reset;
      s.sqc.dispensers[0].state = .enabled ∧ s.lnk.trailing = [] ∧
        (inDwell s && dwellEmpty s && s.msv.atRest) = false ∧
        ∀ m : Fin 48, m ≠ 0 → s.sqc.dispensers[m].state = .disabled) ∧
    (let s := onDispenser 47 (fun d => { d with state := .depleted }) State.reset;
      linkReady s ∧ s.sqc.dispensers[47].state = .depleted ∧ s.sqc.dispensers[47].position < s.sqc.v ∧
        State.reset.sqc.dispensers[47].state = .disabled) ∧
    (let s := onDispenser 0 (fun d => { d with state := .suspended }) State.reset;
      linkReady s ∧ s.sqc.dispensers[0].state = .suspended) := by decide

theorem witness_DispensersAreSetAndMadeReady_starved :
    let s := onDispenser 0 (fun d => { d with state := .depleted })
      (onMsv (fun m => { m with dwell := { m.dwell with starved := true } }) (within (.running .dwell)))
    linkReady s ∧ inRun s = true ∧ s.sqc.dispensers[0].state ≠ .enabled ∧ s.sqc.dispensers[0].state ≠ .disabled ∧
      (1 : Byte).toNat = s.sqc.dispensers[0].position ∧ 1 ≤ s.sqc.dispensers[0].position ∧
      s.sqc.dispensers[0].position < s.sqc.v ∧ s.sqc.v ≤ 96 ∧ (0 : Byte).toNat = (0 : Fin 48).val ∧
      s.sqc.dispensers[0].cls = .plain ∧ s.msv.dwell.starved = true ∧
      ∀ m : Fin 48, m ≠ 0 → s.sqc.dispensers[m].state = .disabled := by decide

theorem witness_SingleSettingsAndCursorsAreSet :
    (linkReady State.reset ∧ 15 < (16 : Byte).toNat ∧ (15 : Byte).toNat ≤ 15 ∧
      Table.wf spanReset State.reset.store.spans = true) ∧
    (3 < (4 : Byte).toNat ∧ (3 : Byte).toNat ≤ 3 ∧ State.reset.lnk.baudDue = none) ∧
    (after .replySend (after (.setBaud 3) State.reset)).lnk.baudDue = some 3 ∧
    (1023 < (1024 : Word16).toNat ∧ 2 < (3 : Byte).toNat ∧ 4095 < (4096 : Word16).toNat) ∧
    ((1023 : Word16).toNat ≤ 1023 ∧ (4095 : Word16).toNat ≤ 4095 ∧ (2 : Byte).toNat = 2) ∧
    (State.reset.tmu.mapLength < (1 : Word16).toNat ∧ (0 : Word16).toNat ≤ State.reset.tmu.mapLength ∧
      inRun State.reset = false) ∧
    (linkReady (within .stopping) ∧ inRun (within .stopping) = true) := by decide

/-- A record of step 0 in state CHAINED. -/
def inFlight0 (s : State) : State :=
  onPgs (fun p => { p with items := [((item 0).key, ⟨.chained, 0, none⟩)] }) (program 1 s)

theorem witness_StepWriteWritesUpToTheFirstRefused :
    let last := onStore (fun t => { t with stepCursor := ⟨1023, .all⟩ }) State.reset
    (linkReady last ∧ last.lnk.trailing = [] ∧ last.store.stepCursor.position + [step0].length ≤ 1024 ∧
      (∀ f ∈ [{ step0 with dispenser := 47 }], f.dispenser.toNat ≤ 47) ∧ stepInFlight 1023 last = false ∧
      inDwell last = false ∧ judgesStarvation last = false ∧ Table.wf StepRecord.reset last.store.steps = true) ∧
    (List.replicate 32 step0).length ≤ 32 ∧
    (let s := onStore (fun t => { t with stepCursor := ⟨1024, .all⟩ }) State.reset;
      linkReady s ∧ 1024 ≤ s.store.stepCursor.position) ∧
    (State.reset.store.stepCursor.position < 1024 ∧ 47 < ({ step0 with dispenser := 48 } : StepFields).dispenser.toNat) ∧
    (linkReady (inFlight0 State.reset) ∧ stepInFlight 0 (inFlight0 State.reset) = true ∧ inDwell (inFlight0 State.reset) = false) ∧
    32 < (List.replicate 33 step0).length := by decide

theorem witness_StepWriteWritesUpToTheFirstRefused_later :
    let at1022 := onStore (fun t => { t with stepCursor := ⟨1022, .all⟩ }) State.reset
    let bad : StepFields := { step0 with dispenser := 48 }
    (linkReady at1022 ∧ Table.wf StepRecord.reset at1022.store.steps = true ∧ 2 ≤ [step0, step0, step0].length ∧
      at1022.store.stepCursor.position + 2 = 1024 ∧ step0.dispenser.toNat ≤ 47 ∧
      stepInFlight 1022 at1022 = false ∧ stepInFlight 1023 at1022 = false ∧ stepInFlight 1024 at1022 = false) ∧
    (at1022.store.stepCursor.position + 1 < 1024 ∧ 1 < [step0, bad].length ∧ 47 < bad.dispenser.toNat) ∧
    (let s := inFlight0 State.reset;
      linkReady s ∧ s.store.stepCursor.position + 0 < 1024 ∧ step0.dispenser.toNat ≤ 47 ∧ stepInFlight 0 s = true) ∧
    (let s := onMsv (fun m => { m with dwell := { m.dwell with starved := true } })
        (panelOpen .direct (program 1 (within (.running .dwell))));
      linkReady s ∧ isRunning s = true ∧ s.pgs.panel.isSome = true ∧ runMode s = some .direct ∧
        stepInFlight 0 s = false) := by decide

theorem witness_TapemapWriteWritesAndClearEmpties_later :
    let s := onTmu (fun t => { t with cursor := ⟨4094, .write⟩ }) State.reset
    let l : List TapeFields := [⟨2, 0, 0⟩, ⟨3, 0, 0⟩, ⟨2, 0, 0⟩]
    let es : List TapeEntry := [.blank, .panelEnd]
    (linkReady s ∧ Table.wf TapeEntry.blank s.tmu.map = true ∧ es.length ≤ l.length ∧
      s.tmu.cursor.position + es.length = 4096 ∧ (l.take 2).map tapeEntryOf = es.map some) ∧
    (s.tmu.cursor.position + 1 < 4096 ∧ 3 < (⟨4, 0, 0⟩ : TapeFields).kind.toNat) := by decide

theorem witness_TapemapWriteWritesAndClearEmpties :
    let last := onTmu (fun t => { t with cursor := ⟨4093, .all⟩ }) State.reset
    let l : List TapeFields := [⟨1, 1023, 4⟩, ⟨2, 0, 0⟩, ⟨3, 0, 0⟩]
    let es : List TapeEntry := [.item ⟨1023, 3⟩, .blank, .panelEnd]
    (linkReady last ∧ l.length ≤ 32 ∧ last.tmu.cursor.position + l.length ≤ 4096 ∧ es.length = l.length ∧
      Table.wf TapeEntry.blank last.tmu.map = true ∧ l.map tapeEntryOf = es.map some) ∧
    (let s := onTmu (fun t => { t with cursor := ⟨4096, .all⟩ }) State.reset;
      linkReady s ∧ 4096 ≤ s.tmu.cursor.position) ∧
    (linkReady State.reset ∧ State.reset.tmu.cursor.position < 4096 ∧ 3 < (4 : Byte).toNat ∧ 1023 < (1024 : Word16).toNat ∧
      4 < (5 : Byte).toNat) ∧
    (let s := running (.running .cycling) .tapeIn;
      linkReady s ∧ inRun s = true ∧ runMode s = some .tapeIn) ∧
    (let s := running .stopping .tapeOut;
      linkReady s ∧ inRun s = true ∧ runMode s = some .tapeOut) ∧
    (inRun State.reset = false ∧ inRun (within .stopping) = true ∧ runMode (within .stopping) = some .direct) := by decide

theorem witness_StepCountAndPanelSetRebuildTheItems :
    let f : PanelFields := ⟨4, ⟨0, 0, 0⟩, ⟨0, 0, 0⟩, ⟨0, 0, 0⟩, ⟨0, 0, 1⟩, 0, 0, 3⟩
    (linkReady State.reset ∧ 1024 < (1025 : Word16).toNat ∧ (1024 : Word16).toNat ≤ 1024) ∧
    (linkReady (panelOpen .direct State.reset) ∧ (panelOpen .direct State.reset).pgs.panel.isSome = true) ∧
    (linkReady (within .stopping) ∧ inRun (within .stopping) = true) ∧
    (State.reset.pgs.panel = none ∧ inRun State.reset = false) ∧
    ((0 : Byte).toNat = 0 ∧ 4 < (5 : Byte).toNat) ∧
    ([f.image1, f.image2, f.image3, f.image4].take f.count.toNat).any (fun e => e.enabled.getLsbD 0) = true ∧
    ([f.image1, f.image2, f.image3, f.image4].take 3).any (fun e => e.enabled.getLsbD 0) = false ∧
    (max 1 (min 7 f.maxTries.toNat) = (panelOpen .direct State.reset).pgs.active.maxTries ∧
      max 1 (min 7 (8 : Byte).toNat) ≠ (panelOpen .direct State.reset).pgs.active.maxTries) := by decide

/-! ### The requests that run, stop and clear the machine, and service mode -/

/-- Every axis IDLE, homed. -/
def homed (s : State) : State :=
  onMot (fun m => { m with x := { m.x with state := .idle }, y := { m.y with state := .idle }
                           span := { m.span with state := .idle }, rot := { m.rot with state := .idle } }) s

/-- The shaft turning. -/
def turning (s : State) : State := onMsv (fun m => { m with atRest := false }) s

/-- The angle synchronized, at a. -/
def syncedAt (a : Angle) (s : State) : State := onStu (fun u => { u with synced := true, angle := a }) s

/-- A service operation in flight. -/
def operating (o : ServiceOp) (s : State) : State := onMot (fun m => { m with service := some o }) s

/-- One ITEM slot at position 1. -/
def slotHeld (s : State) : State :=
  onSqc (fun q => { q with chain := ⟨.item (item 0) .loaded, false, false⟩ :: List.replicate 55 .unknown }) s

theorem witness_HomeBeginsHomingAndItsSearches :
    (linkReady (within .halted) ∧ (within .halted).msv.state ≠ .unhomed ∧ (within .halted).msv.state ≠ .stopped) ∧
    (linkReady (within .stopped) ∧ (within .stopped).msv.state = .stopped) ∧
    (onAxis .x (fun r => { r with state := .moving }) (within .stopped)).mot.x.state = .moving ∧
    (linkReady State.reset ∧ State.reset.msv.state = .unhomed ∧ State.reset.mot.service = none ∧
      State.reset.mot.cAxis = none ∧ State.reset.mot.cGap = none ∧ State.reset.mot.x.state = .unhomed ∧
      State.reset.mot.y.state = .unhomed ∧ State.reset.mot.span.state = .unhomed ∧ State.reset.mot.rot.state = .unhomed ∧
      State.reset.mot.x.drive = .idle ∧ State.reset.mot.y.drive = .idle ∧ State.reset.mot.span.drive = .idle ∧
      State.reset.mot.rot.drive = .idle) := by decide

theorem witness_RunIsRefusedOrTaken_refused :
    (linkReady (within .halted) ∧ (within .halted).msv.state ≠ .stopped) ∧
    (linkReady (turning (within .stopped)) ∧ (turning (within .stopped)).msv.atRest = false) ∧
    (let s := within .stopped;
      linkReady s ∧ s.msv.state = .stopped ∧ s.msv.atRest = true ∧ 2 < (3 : Byte).toNat ∧ s.pgs.panel = none ∧
        s.store.stepCount = 0 ∧ s.tmu.mapLength ≤ s.tmu.position) ∧
    (let s := panelOpen .direct (within .stopped);
      linkReady s ∧ s.msv.state = .stopped ∧ s.msv.atRest = true ∧ s.pgs.panel = some .direct ∧
        (0 : Byte).getLsbD 0 = false ∧ (1 : Byte).toNat = 1 ∧ boardPresent s = false) ∧
    (let s := panelOpen .tapeOut (within .stopped);
      linkReady s ∧ s.msv.state = .stopped ∧ s.msv.atRest = true ∧ s.pgs.panel = some .tapeOut) ∧
    (let s := onTmu (fun t => { t with jammed := true }) (within .stopped);
      linkReady s ∧ s.msv.state = .stopped ∧ s.msv.atRest = true ∧ s.tmu.jammed = true) := by decide

theorem witness_RunIsRefusedOrTaken_taken :
    (let s := program 1 (within .stopped);
      linkReady s ∧ s.lnk.trailing = [] ∧ s.msv.state = .stopped ∧ s.msv.atRest = true ∧ s.pgs.panel = none ∧
        0 < s.store.stepCount ∧ (stepAt 0 s).skip = false ∧ (s.pgs.boardChanged && boardPresent s) = false ∧
        headItem s = none ∧ s.mot.held = none ∧ motionInFlight s = false) ∧
    (let s := panelOpen .tapeOut (slotHeld (within .stopped));
      linkReady s ∧ s.lnk.trailing = [] ∧ s.msv.state = .stopped ∧ s.msv.atRest = true ∧ s.pgs.panel = some .tapeOut ∧
        (1 : Byte).getLsbD 0 = true ∧ headItem s = none ∧ s.mot.held = none ∧ motionInFlight s = false ∧
        (∃ c ∈ s.sqc.chain, c.holds.isSome = true) ∧ s.msv.dwell = .none) ∧
    (let s := onTmu (fun t => { t with mapLength := 1 }) (high 7 (high 6 (panelOpen .tapeIn (within .stopped))));
      linkReady s ∧ s.msv.state = .stopped ∧ s.msv.atRest = true ∧ s.pgs.panel = some .tapeIn ∧
        (1 : Byte).getLsbD 0 = true ∧ boardPresent s = true ∧ s.tmu.jammed = false ∧ s.tmu.position < s.tmu.mapLength ∧
        headItem s = none ∧ s.mot.held = none ∧ motionInFlight s = false ∧ tapeEnd s = true ∧
        Table.wf ItemRecord.fresh s.pgs.items = true) := by decide

theorem witness_RunIsRefusedOrTaken_threaded :
    let s := onTmu (fun t => { t with mapLength := 1 }) (high 6 (panelOpen .direct (within .stopped)))
    linkReady s ∧ s.msv.state = .stopped ∧ s.msv.atRest = true ∧ s.pgs.panel = some .direct ∧ boardPresent s = true ∧
      s.tmu.jammed = false ∧ s.tmu.position < s.tmu.mapLength ∧ headItem s = none ∧ tapeEnd s = false ∧
      s.msv.dwell = .none := by decide

/-- HOMING with a HOME in flight. -/
def homing (s : State) : State := onMsv (fun m => { m with state := .homing, home := some false }) s

/-- A single revolution in progress. -/
def single (k : SingleKind) (travel : Int) (dropped : Bool) (s : State) : State :=
  onMsv (fun m => { m with single := some ⟨k, travel, dropped⟩ }) s

theorem witness_StopActsByTheState :
    (linkReady State.reset ∧ State.reset.lnk.trailing = [] ∧ State.reset.msv.state = .unhomed) ∧
    (let s := onMsv (fun m => { m with home := some true }) (within .homing);
      linkReady s ∧ s.lnk.trailing = [] ∧ s.msv.state = .homing ∧ s.msv.home = some true) ∧
    (let s := within .service;
      linkReady s ∧ s.lnk.trailing = [] ∧ s.msv.state = .service ∧ s.mot.service = none) ∧
    (let s := operating (.jog .x true .none) (within .service);
      linkReady s ∧ s.lnk.trailing = [] ∧ s.msv.state = .service ∧ s.mot.service = some (.jog .x true .none)) := by decide

theorem witness_StopActsByTheState_running :
    (linkReady (within (.running .cycling)) ∧ (within (.running .cycling)).lnk.trailing = [] ∧
      (within (.running .cycling)).msv.state = .running .cycling) ∧
    (linkReady (within (.running .dwell)) ∧ (within (.running .dwell)).lnk.trailing = [] ∧
      (within (.running .dwell)).msv.state = .running .dwell) ∧
    (let s := after (.jogRunPositive 0) (within .service);
      s.mot.service = some (.jog .x false .none) ∧ (s.mot.axis .x).drive = .jog true 2 false) ∧
    (operating (.loop .x true 2 0 0 0 0 .none) (within .service)).mot.service = some (.loop .x true 2 0 0 0 0 .none) ∧
    (let s := operating (.dry .none) (single .dry 0 false (within .service));
      linkReady s ∧ s.lnk.trailing = [] ∧ s.msv.state = .service ∧ s.mot.service = some (.dry .none) ∧
        s.msv.single = some ⟨.dry, 0, false⟩) := by decide

theorem witness_StopActsByTheState_homing :
    (let s := after .replySend (after .home State.reset);
      linkReady s ∧ s.lnk.trailing = [] ∧ s.msv.state = .homing ∧ s.msv.home = some false ∧ s.mot.x.state = .homing ∧
        s.mot.x.drive = .search false 2 0 false false ∧ s.mot.rot.state = .homing ∧ s.mot.rot.drive = .idle ∧
        s.msv.single = none) ∧
    (let s := homing (homed (single .sync 5 false (tripOn State.reset)));
      linkReady s ∧ s.lnk.trailing = [] ∧ s.msv.state = .homing ∧ s.msv.home = some false ∧
        s.msv.single = some ⟨.sync, 5, false⟩) ∧
    (let s := homing (homed State.reset);
      linkReady s ∧ s.lnk.trailing = [] ∧ s.msv.state = .homing ∧ s.msv.home = some false ∧ s.msv.atRest = true ∧
        s.msv.trip = false ∧ motionInFlight s = false ∧ s.mot.x.state ≠ .homing ∧ s.mot.y.state ≠ .homing ∧
        s.mot.span.state ≠ .homing ∧ s.mot.rot.state ≠ .homing) := by decide

theorem witness_FaultsAndAlarmsAreCleared :
    (linkReady (stopLineHigh State.reset) ∧ causePresent (stopLineHigh State.reset) = true) ∧
    (let s := within .halted;
      linkReady s ∧ s.fau.stopLine.accepted = false ∧ s.mot.limit.accepted = false ∧ anyLocked s = false ∧
        s.msv.state = .halted) ∧
    (let s := within .stopped;
      linkReady s ∧ s.fau.stopLine.accepted = false ∧ s.mot.limit.accepted = false ∧ anyLocked s = false ∧
        s.msv.state ≠ .halted ∧ inDwell s = false) ∧
    (let s := onMsv (fun m => { m with dwell := { m.dwell with fault := true } }) (within (.running .dwell));
      let u := onMsv (fun m => { m with faultPending := false, dwell := { m.dwell with fault := false } }) s;
      linkReady s ∧ s.fau.stopLine.accepted = false ∧ s.mot.limit.accepted = false ∧ anyLocked s = false ∧
        s.msv.state = .running .dwell ∧ s.msv.atRest = true ∧ dwellEmpty u = true) := by decide

theorem witness_PanelReleaseAbandonsTheRest :
    (linkReady (within .stopped) ∧ (within .stopped).lnk.trailing = [] ∧ (within .stopped).pgs.panel = none) ∧
    (linkReady (within .halted) ∧ (within .halted).msv.state ≠ .stopped) ∧
    (let s := panelOpen .direct (slotHeld (within .stopped));
      linkReady s ∧ s.lnk.trailing = [] ∧ s.msv.state = .stopped ∧ s.pgs.panel = some .direct ∧
        Table.wf ItemRecord.fresh s.pgs.items = true) := by decide

theorem witness_ServiceIsEnteredAndLeft :
    (linkReady (stopLineHigh State.reset) ∧ (stopLineHigh State.reset).lnk.trailing = [] ∧
      causePresent (stopLineHigh State.reset) = true) ∧
    (let s := within .homing;
      linkReady s ∧ s.lnk.trailing = [] ∧ s.msv.state ≠ .unhomed ∧ s.msv.state ≠ .stopped ∧ s.msv.state ≠ .halted) ∧
    (linkReady (within .halted) ∧ (within .halted).lnk.trailing = [] ∧ causePresent (within .halted) = false ∧
      (within .halted).msv.state = .halted) ∧
    (let s := operating (.dry .none) (within .service);
      linkReady s ∧ s.lnk.trailing = [] ∧ s.mot.service.isSome = true) ∧
    (linkReady (within .service) ∧ (within .service).lnk.trailing = [] ∧ (within .service).msv.state = .service ∧
      (within .service).mot.service = none) := by decide

theorem witness_RequestsWithoutAKindAreRefused :
    (linkReady State.reset ∧ 1 ≤ (63 : Byte).toNat ∧ (63 : Byte).toNat ≤ 63 ∧
      (6 : Byte).toNat ∉ [1, 2, 3, 4, 5, 8, 9, 10, 11, 12, 13, 14, 15, 16, 17, 18, 19, 20, 21, 24, 25, 26, 27, 32, 33, 34,
        35, 36, 37, 38, 39, 40, 41, 42, 48, 49, 50, 51, 52, 53]) ∧
    ((53 : Byte).toNat ∈ [50, 51, 52, 53] ∧ State.reset.msv.state ≠ .service) := by decide

theorem witness_JogsMoveAnAxis :
    (linkReady (within .service) ∧ (within .service).msv.state = .service ∧ 3 < (4 : Byte).toNat ∧ (3 : Byte).toNat = 3 ∧
      (within .service).mot.service = none ∧ (within .service).mot.rot.state = .unhomed ∧
      (within .service).mot.cAxis = none ∧ (within .service).mot.cGap = none) ∧
    (let s := onMot (fun m => { m with cGap := some 0 }) (within .service);
      linkReady s ∧ s.msv.state = .service ∧ s.mot.cGap.isSome = true) ∧
    (let s := operating (.dry .none) (within .service);
      linkReady s ∧ s.msv.state = .service ∧ s.mot.service = some (.dry .none)) ∧
    (let s := after .replySend (after (.jogRunPositive 0) (within .service));
      linkReady s ∧ s.msv.state = .service ∧ s.mot.service = some (.jog .x false .none) ∧
        s.mot.x.drive = .jog true 2 false) ∧
    (let s := homed (within .service);
      linkReady s ∧ s.msv.state = .service ∧ s.mot.service = none ∧ s.mot.x.state = .idle ∧ s.mot.x.homed = true ∧
        softLimit .x = some 45000 ∧ 0 ≤ s.mot.x.commanded ∧ s.mot.x.commanded ≤ 45000) := by decide

theorem witness_ForcesSwitchTheOutputs :
    (linkReady (within .service) ∧ (within .service).msv.state = .service ∧ 8 < (9 : Byte).toNat ∧
      (8 : Byte).toNat = (8 : ChannelNo).val ∧ (within .service).stu.channels[8].force = false) ∧
    (onChannel 0 (fun c => { c with force := true }) (within .service)).stu.channels[0].force = true ∧
    (channelOutput 7 (within .service).stu.channels[7] = false ∧ (within .service).stu.channels[7].locked = false ∧
      Table.wf ItemRecord.fresh (within .service).pgs.items = true) ∧
    (channelOutput 8 (within .service).stu.channels[8] = false ∧ (within .service).stu.channels[8].locked = false) := by
  decide

theorem witness_DryCyclesAndLoopTestsStart :
    (linkReady (turning (within .service)) ∧ (turning (within .service)).msv.state = .service ∧
      (turning (within .service)).msv.atRest = false) ∧
    (let s := operating (.dry .none) (within .service);
      linkReady s ∧ s.msv.state = .service ∧ s.mot.service.isSome = true) ∧
    (linkReady (within .service) ∧ (within .service).msv.state = .service ∧ (within .service).msv.atRest = true ∧
      (within .service).mot.service = none ∧ (within .service).mot.y.state = .unhomed) ∧
    (1 < (2 : Byte).toNat ∧ (0 : Word16).toNat = 0 ∧ 32767 < (32768 : Word16).toNat) ∧
    ((1 : Byte).toNat = 1 ∧ 1 ≤ (1 : Word16).toNat ∧ (32767 : Word16).toNat ≤ 32767) ∧
    (let s := homed (within .service);
      linkReady s ∧ s.msv.state = .service ∧ s.mot.service = none ∧ s.mot.x.state = .idle) := by decide

/-! ### The receiver -/

/-- A framer in a state with bytes held. -/
def framing (f : FramerState) (held : List Byte) : State :=
  onLnk (fun l => { l with framer := f, heldBytes := held, gapTimer := some 0 }) State.reset

theorem witness_TheFramerTakesAndDiscardsBytes :
    (State.reset.lnk.baudDue = none ∧ State.reset.lnk.waiting = none ∧ State.reset.lnk.framer = .hunt) ∧
    (let s := framing .len [];
      s.lnk.baudDue = none ∧ s.lnk.waiting = none ∧ s.lnk.framer = .len ∧ s.lnk.heldBytes = [] ∧ 1 ≤ (1 : Byte).toNat ∧
        (241 : Byte).toNat ≤ 241 ∧ 241 < (242 : Byte).toNat ∧ (242 : Byte) ≠ 165 ∧ s.lnk.framer ≠ .hunt ∧
        (165 : Byte) ∉ s.lnk.heldBytes) ∧
    (let s := framing (.body 1) [1];
      s.lnk.baudDue = none ∧ s.lnk.waiting = none ∧ s.lnk.framer = .body 1 ∧ s.lnk.heldBytes.length = 1) ∧
    (let s := framing (.check 1) [1, 1];
      s.lnk.baudDue = none ∧ s.lnk.waiting = none ∧ (165 : Byte) ∉ s.lnk.heldBytes ∧ s.lnk.framer = .check 1 ∧
        sumBytes (s.lnk.heldBytes ++ [(0 : Byte)]) ≠ 0) ∧
    (let s := framing (.check 1) [1, 64];
      s.lnk.baudDue = none ∧ s.lnk.waiting = none ∧ (165 : Byte) ∉ s.lnk.heldBytes ∧ s.lnk.framer = .check 1 ∧
        s.lnk.heldBytes = 1 :: 64 :: [] ∧ sumBytes (s.lnk.heldBytes ++ [(191 : Byte)]) = 0 ∧ 63 < (64 : Byte).toNat) ∧
    (let s := framing (.body 4) [4, 165, 241];
      s.lnk.baudDue = none ∧ s.lnk.waiting = none ∧ s.lnk.framer = .body 4 ∧ (165 : Byte) ∉ [(4 : Byte)] ∧
        (241 : Byte).toNat ≤ 241 ∧ s.lnk.heldBytes = [4] ++ [165, 241]) := by decide

theorem witness_RequestsReadAsWritten :
    (Instr.run 0 1 0).wellFormed = true ∧ encodeRequest (.run 0 1 0) = some (33, [0, 1, 0]) := by decide

theorem witness_OnlyWellFormedRequestsAreRead : parseRequest 33 [0, 1, 0] = .request (.run 0 1 0) := by decide

theorem witness_AFrameReceivedIsItsRequest :
    (Instr.run 0 1 0).wellFormed = true ∧ encodeRequest (.run 0 1 0) = some (33, [0, 1, 0]) ∧ linkReady State.reset := by
  decide

/-! ### The shaft and its channels -/

theorem witness_EncoderCountsMoveTheAngle :
    (State.reset.lnk.trailing = [] ∧ State.reset.stu.synced = false ∧ State.reset.msv.single = none ∧
      inRun State.reset = false) ∧
    (let s := onStu (fun u => { u with retrace := 1 }) (syncedAt 4095 (single .dry 1022 false (tripOn (within .service))));
      s.lnk.trailing = [] ∧ 0 < s.stu.retrace ∧ s.msv.single = some ⟨.dry, 1022, false⟩ ∧ (1022 : Int) + 1 < 1024) ∧
    (let s := single .sync 1023 false (tripOn (within .homing));
      s.lnk.trailing = [] ∧ s.stu.synced = false ∧ s.msv.single = some ⟨.sync, 1023, false⟩ ∧ s.msv.trip = true ∧
        (1024 : Int) ≤ 1023 + 1) ∧
    (let s := onStu (fun u => { u with excursion := 64 }) (within .stopping);
      inRun s = true ∧ s.stu.excursion = 64 ∧ s.stu.reverseRaised = false) ∧
    (let s := onStu (fun u => { u with stallTimer := some ⟨200, 199⟩ }) (tripOn State.reset);
      s.stu.stallTimer = some ⟨200, 199⟩ ∧ s.msv.trip = true) ∧
    (State.reset.stu.stallTimer = none ∧ channelOutput 8 State.reset.stu.channels[8] = false) ∧
    (let s := onChannel 0 (fun c => { c with command := true }) State.reset;
      channelOutput 0 s.stu.channels[0] = true) := by decide

/-- A state, its angle and its landmark pointer, that meets the hypotheses on the shaft, the channels and the windows of
CrossingsFireTheLandmarks. -/
def crossingQuiet (s : State) : Bool :=
  let a := s.stu.angle + 1
  decide (s.stu.synced = true ∧ s.stu.retrace = 0 ∧ s.msv.single = none ∧ s.lnk.trailing = []) &&
  (List.finRange 9).all (fun i => let c := s.stu.channels[i]
    !c.command && c.staged.isNone && (match c.active.mode with
      | .angle on off => a != on && a != off
      | .edge .. => c.trigger == .spent || c.trigger == .opened)) &&
  (List.finRange 12).all fun n => s.wmu.windows[n].staged.isNone && s.wmu.windows[n].active.role == .unused

/-- The angle one before a landmark, the pointer at it. -/
def before (l : Landmark) (s : State) : State :=
  onStu (fun u => { u with pointer := some l }) (syncedAt (s.store.landmarks.angleOf l - 1) s)

/-- Channel 1 has its default off-angle at CLOSE; these states move it away. -/
def cutAway (s : State) : State := onChannel 2 (fun c => { c with active := ⟨.angle 700 1000, 300⟩ })
  (onChannel 1 (fun c => { c with active := ⟨.angle 384 630, 300⟩ }) s)

/-- INDEX stands where CHAIN and FEED switch on; these states move them away. -/
def chainAway (s : State) : State := onChannel 7 (fun c => { c with active := ⟨.angle 3080 3328, 300⟩ })
  (onChannel 8 (fun c => { c with active := ⟨.angle 3080 3328, 300⟩ }) s)

theorem witness_CrossingsFireTheLandmarks :
    (let s := syncedAt 4095 (within (.running .cycling));
      crossingQuiet s = true ∧ s.stu.angle + 1 = 0 ∧ inDwell s = false ∧ s.store.landmarks.close ≠ 0) ∧
    (let s := syncedAt 0 State.reset;
      crossingQuiet s = true ∧ s.stu.angle + 1 ≠ 0 ∧ s.stu.pointer = some .close ∧
        s.stu.angle + 1 ≠ s.store.landmarks.angleOf .close) ∧
    (let s := before .index (chainAway (within (.running .dwell)));
      crossingQuiet s = true ∧ s.stu.pointer = some .index ∧ s.stu.angle + 1 = s.store.landmarks.angleOf .index ∧
        s.stu.angle + 1 ≠ 0 ∧ inDwell s = true) ∧
    (let s := before .close (cutAway (within (.running .cycling)));
      crossingQuiet s = true ∧ s.stu.pointer = some .close ∧ s.stu.angle + 1 = s.store.landmarks.angleOf .close ∧
        s.stu.angle + 1 ≠ 0 ∧ inRun s = true ∧ inDwell s = false ∧ anyMoving s = false) ∧
    (let s := before .verifyClose State.reset;
      crossingQuiet s = true ∧ s.stu.pointer = some .verifyClose ∧
        s.stu.angle + 1 = s.store.landmarks.angleOf .verifyClose ∧ s.stu.angle + 1 ≠ 0 ∧ s.sqc.verdict ≠ .undecided ∧
        inDwell s = false) := by decide

theorem witness_CrossingsFireTheLandmarks_commit :
    (let s := before .commit (within (.running .cycling));
      crossingQuiet s = true ∧ s.stu.pointer = some .commit ∧ s.stu.angle + 1 = s.store.landmarks.angleOf .commit ∧
        s.stu.angle + 1 ≠ 0 ∧ s.msv.state = .running .cycling ∧ s.msv.finishing = false ∧ runMode s = some .direct ∧
        (slotAt s.sqc.q s).content = .unknown ∧ s.msv.faultPending = false ∧ s.msv.dwell = .none) ∧
    (let s := before .commit (onMsv (fun m => { m with faultPending := true }) (tripOn (within (.running .cycling))));
      crossingQuiet s = true ∧ s.stu.pointer = some .commit ∧ s.stu.angle + 1 = s.store.landmarks.angleOf .commit ∧
        s.stu.angle + 1 ≠ 0 ∧ s.msv.state = .running .cycling ∧ s.msv.finishing = false ∧ runMode s = some .direct ∧
        (slotAt s.sqc.q s).content = .unknown ∧ { s.msv.dwell with fault := true } ≠ DwellSet.none ∧ s.msv.trip = true) ∧
    (let s := before .commit (tripOn (running .stopping .tapeOut));
      crossingQuiet s = true ∧ s.stu.pointer = some .commit ∧ s.stu.angle + 1 = s.store.landmarks.angleOf .commit ∧
        s.stu.angle + 1 ≠ 0 ∧ s.msv.state = .stopping ∧ s.msv.trip = true ∧ s.msv.faultPending = false ∧
        runMode s = some .tapeOut) := by decide

/-- CYCLING, synchronized, with item 0 in the head, judged good. -/
def headGood (s : State) : State :=
  onWmu (fun w => { w with head := { w.head with content := .item (item 0), record := some (item 0), good := true } }) s

/-- A channel in EDGE mode with a trigger. -/
def edged (i : ChannelNo) (t : Trigger) (s : State) : State :=
  onChannel i (fun c => { c with active := ⟨.edge 4 .rise 2 3, 300⟩, trigger := t }) s

/-- The slot at R stray, so that REJECT's gate is open. -/
def strayAtR (s : State) : State :=
  onSqc (fun q => { q with chain := q.chain.set 51 ⟨.unknown, true, false⟩ }) s

theorem witness_ChannelsSwitchByAngleAndEdge :
    (let s := onChannel 1 (fun c => { c with command := true }) (syncedAt 640 (within (.running .cycling)));
      s.lnk.trailing = [] ∧ maySwitch 1 s = true ∧ s.stu.channels[1].active.mode = .angle 384 640 ∧
        s.stu.channels[1].command = true ∧ s.stu.channels[1].trigger ≠ .running) ∧
    (let s := headGood (syncedAt 384 (within (.running .cycling)));
      maySwitch 1 s = true ∧ s.msv.state ≠ .service ∧ s.stu.channels[1].command = false ∧ gateOpen 1 s = true) ∧
    (let s := syncedAt 384 (within (.running .cycling));
      maySwitch 1 s = true ∧ s.msv.state ≠ .service ∧ s.stu.channels[1].command = false ∧ gateOpen 1 s = false) ∧
    (let s := edged 6 (.armed 0) (syncedAt 1 (within (.running .cycling)));
      maySwitch 6 s = true ∧ s.stu.channels[6].active.mode = .edge 4 .rise 2 3 ∧ s.stu.channels[6].trigger = .armed 0 ∧
        0 + 1 < 2 ∧ s.stu.channels[6].command = false ∧ s.msv.state ≠ .service ∧ gateOpen 6 s = false) ∧
    (let s := onChannel 6 (fun c => { c with command := true, onTravel := 2 })
        (edged 6 .running (syncedAt 1 (within (.running .cycling))));
      maySwitch 6 s = true ∧ s.stu.channels[6].active.mode = .edge 4 .rise 2 3 ∧ s.stu.channels[6].trigger = .running ∧
        s.stu.channels[6].command = true) ∧
    (let s := headGood (edged 1 (.armed 0) (syncedAt 1 (within (.running .cycling))));
      s.stu.channels[1].active.mode = .edge 4 .rise 2 3 ∧ s.stu.channels[1].trigger = .armed 0 ∧
        s.stu.channels[1].command = false ∧ maySwitch 1 s = true ∧ s.msv.state ≠ .service ∧ gateOpen 1 s = true) ∧
    (let s := strayAtR (edged 6 (.armed 0) (syncedAt 1 (within (.running .cycling))));
      s.stu.channels[6].active.mode = .edge 4 .rise 2 3 ∧ s.stu.channels[6].trigger = .armed 0 ∧
        s.stu.channels[6].command = false ∧ maySwitch 6 s = true ∧ s.msv.state ≠ .service ∧ gateOpen 6 s = true ∧
        s.stu.channels[6].locked = false ∧ s.stu.channels[6].force = false) ∧
    (State.reset.stu.channels[6].trigger = .spent ∧ maySwitch 6 State.reset = false) := by decide

/-- An index input accepted low, a travel of 2,048 and the angle synchronized. -/
def indexed (a : Angle) (s : State) : State := onStu (fun u => { u with travel := 2048 }) (syncedAt a s)

theorem witness_IndexMarksSynchronizeAndCorrect_excursion :
    let s := tripOn (onStu (fun u => { u with excursion := 65 }) (indexed 4 State.reset))
    s.lnk.trailing = [] ∧ s.stu.indexInput.accepted = false ∧ s.stu.lastReverse = false ∧ 2048 ≤ s.stu.travel ∧
      s.stu.synced = true ∧ s.msv.trip = true ∧ 64 < s.stu.excursion := by decide

theorem witness_IndexMarksSynchronizeAndCorrect :
    (let s := onStu (fun u => { u with indexInput := up }) State.reset;
      s.lnk.trailing = [] ∧ s.stu.indexInput.accepted = true) ∧
    (State.reset.lnk.trailing = [] ∧ State.reset.stu.indexInput.accepted = false ∧ State.reset.stu.lastReverse = false ∧
      2048 ≤ State.reset.stu.travel ∧ State.reset.stu.synced = false) ∧
    ((onStu (fun u => { u with travel := 2047 }) State.reset).stu.travel < 2048) ∧
    ((onStu (fun u => { u with lastReverse := true }) State.reset).stu.lastReverse = true) ∧
    (let s := indexed 4 State.reset;
      s.stu.lastReverse = false ∧ 2048 ≤ s.stu.travel ∧ s.stu.synced = true ∧
        (s.stu.angle - s.store.landmarks.offset).toInt = 4 ∧ (4 : Int) ≤ s.store.landmarks.tolerance) ∧
    (let s := onStu (fun u => { u with retrace := 4 }) (indexed 4092 State.reset);
      s.stu.synced = true ∧ (s.stu.angle - s.store.landmarks.offset).toInt = -4 ∧ (4 : Int) ≤ s.store.landmarks.tolerance ∧
        (4 : Int) ≤ s.stu.retrace) ∧
    (let s := indexed 5 State.reset;
      s.stu.synced = true ∧ (s.stu.angle - s.store.landmarks.offset).toInt = 5 ∧ (s.store.landmarks.tolerance : Int) < 5) ∧
    (let p := LandmarkProfile.reset;
      p.close < p.commit ∧ p.commit < p.opening ∧ p.opening < p.index ∧ p.index < p.fire ∧ p.fire < p.verifyClose ∧
        pointerAbove p 3967 = some .verifyClose ∧ pointerAbove p 3968 = none) := by decide

theorem witness_RestEndsTheRevolution :
    (State.reset.lnk.trailing = [] ∧ State.reset.msv.atRest = true ∧ inDwell State.reset = false ∧
      State.reset.msv.trip = false) ∧
    (let s := single .dry 9 false (tripOn (within .service));
      s.lnk.trailing = [] ∧ s.msv.single = some ⟨.dry, 9, false⟩ ∧ s.msv.trip = true) ∧
    (let s := turning (tripOn (within (.running .cycling)));
      s.lnk.trailing = [] ∧ s.msv.atRest = false ∧ s.msv.trip = true ∧ inDwell s = false) ∧
    (let s := turning (single .sync 1030 true (homing State.reset));
      s.lnk.trailing = [] ∧ s.msv.atRest = false ∧ s.msv.trip = false ∧ s.msv.state = .homing ∧
        s.msv.single = some ⟨.sync, 1030, true⟩ ∧ s.stu.synced = false) ∧
    (let s := onMsv (fun m => { m with commandedStop := true }) (turning (syncedAt 65 (within .stopping)));
      s.lnk.trailing = [] ∧ s.msv.atRest = false ∧ s.msv.trip = false ∧ s.msv.single = none ∧ s.msv.commandedStop = true ∧
        s.stu.synced = true ∧ 64 < min s.stu.angle.toNat (4096 - s.stu.angle.toNat)) ∧
    (let s := turning (within (.running .dwell));
      s.lnk.trailing = [] ∧ s.msv.atRest = false ∧ s.msv.trip = false ∧ s.msv.single = none ∧ inDwell s = true ∧
        s.stu.synced = false) := by decide

theorem witness_RestEndsTheRevolution_by_state :
    (let s := onMsv (fun m => { m with finishing := true, commandedStop := true, faultPending := true })
        (turning (syncedAt 64 (within (.running .cycling))));
      s.lnk.trailing = [] ∧ s.msv.atRest = false ∧ s.msv.trip = false ∧ s.msv.single = none ∧
        ¬ 64 < min s.stu.angle.toNat (4096 - s.stu.angle.toNat) ∧ s.msv.state = .running .cycling ∧
        s.msv.finishing = true ∧ { s.msv.dwell with fault := true } ≠ DwellSet.none) ∧
    (let s := onMsv (fun m => { m with finishing := true }) (turning (syncedAt 0 (within (.running .cycling))));
      s.lnk.trailing = [] ∧ s.msv.atRest = false ∧ s.msv.trip = false ∧ s.msv.single = none ∧ s.msv.commandedStop = false ∧
        s.msv.state = .running .cycling ∧ s.msv.finishing = true ∧ s.msv.faultPending = false ∧ s.msv.dwell = .none) ∧
    (let s := turning (syncedAt 4032 (within .stopping));
      s.msv.atRest = false ∧ s.msv.trip = false ∧ s.msv.commandedStop = false ∧ s.msv.state = .stopping) ∧
    (let s := turning (syncedAt 0 (within .stopped));
      s.msv.atRest = false ∧ s.msv.trip = false ∧ s.msv.commandedStop = false ∧ s.msv.state = .stopped ∧
        s.stu.synced = true ∧ min s.stu.angle.toNat (4096 - s.stu.angle.toNat) ≤ 64) ∧
    (let s := turning (within .stopped);
      s.msv.atRest = false ∧ s.msv.trip = false ∧ s.msv.commandedStop = false ∧ s.msv.state = .stopped ∧
        s.stu.synced = false) ∧
    (let s := turning State.reset;
      s.msv.atRest = false ∧ s.msv.trip = false ∧ s.msv.commandedStop = false ∧ s.msv.state = .unhomed) ∧
    (let s := turning (operating (.dry .none) (single .dry 4096 true (within .service)));
      s.msv.atRest = false ∧ s.msv.trip = false ∧ s.msv.commandedStop = false ∧ s.msv.state = .service ∧
        s.msv.single = some ⟨.dry, 4096, true⟩ ∧ s.mot.service = some (.dry .none) ∧ s.lnk.mask.getLsbD 6 = true ∧
        s.lnk.queue.length < 24 ∧ s.msv.faultPending = false) := by decide

theorem witness_LocksAndPendingSettingsAreReleased :
    (let s := lockedState 0 State.reset;
      s.lnk.trailing = [] ∧ s.stu.channels[0].locked = true ∧ s.stu.channels[0].command = false ∧
        s.stu.channels[0].force = false) ∧
    (State.reset.stu.channels[8].locked = false) ∧
    (let s := onChannel 0 (fun c => { c with command := true, onTimer := 4, staged := some ⟨.angle 1 2, 5⟩ })
        (onChannel 6 (fun c => { c with command := true, onTravel := 2, staged := some ⟨.edge 4 .fall 0 3, 5⟩ }) State.reset);
      s.lnk.trailing = [] ∧ s.stu.channels[0].staged = some ⟨.angle 1 2, 5⟩ ∧ s.stu.channels[0].onTimer < 5 ∧
        s.stu.channels[6].staged = some ⟨.edge 4 .fall 0 3, 5⟩ ∧ s.stu.channels[6].onTimer < 5 ∧
        s.stu.channels[6].command = true ∧ ∀ i : ChannelNo, i ≠ 0 → i ≠ 6 → s.stu.channels[i].staged = none) ∧
    (let s := onWindow 11 (fun w => { w with staged := some WindowSettings.reset }) State.reset;
      s.lnk.trailing = [] ∧ s.wmu.windows[11].staged = some .reset ∧ s.wmu.windows[0].staged = none) := by decide

/-! ### Windows, the head load and the inputs -/

/-- Window 0 as a WATCH or GUARD window of an input, in a synchronized run. -/
def watching (r : WindowRole) (e : WindowEdge) (s : State) : State :=
  onWindow 0 (fun w => { w with active := ⟨r, some 8, e, 100, 200, some .w, 1⟩ }) (syncedAt 100 s)

/-- The same window open with a capture. -/
def opened (r : WindowRole) (e : WindowEdge) (c : Option Angle) (s : State) : State :=
  onWindow 0 (fun w => { w with isOpen := true, capture := c }) (watching r e s)

theorem witness_WindowsOpenCaptureAndClose :
    (State.reset.wmu.windows[0].active.role = .unused ∧ State.reset.wmu.windows[0].isOpen = false ∧
      State.reset.stu.synced = false) ∧
    (let s := watching .watch .rise (within (.running .cycling));
      let w := s.wmu.windows[0];
      inRun s = true ∧ s.stu.synced = true ∧ w.active.role ≠ .unused ∧ w.isOpen = false ∧ w.active.lo ≠ w.active.hi ∧
        w.active.input = some 8 ∧ w.active.edge = .rise) ∧
    (let s := high 8 (watching .watch .high (within (.running .cycling)));
      let w := s.wmu.windows[0];
      inRun s = true ∧ s.stu.synced = true ∧ w.isOpen = false ∧ w.active.lo ≠ w.active.hi ∧ w.active.input = some 8 ∧
        w.active.role ≠ .guard ∧ w.active.edge = .high ∧ s.wmu.inputs[8].accepted = true) ∧
    (let s := opened .watch .fall none (within .stopping);
      let w := s.wmu.windows[0];
      inRun s = true ∧ s.stu.synced = true ∧ w.isOpen = true ∧ w.active.input = some 8 ∧ w.capture = none ∧
        w.active.role ≠ .guard ∧ w.active.input ≠ some 7 ∧ windowApplies w s = true ∧ w.active.role = .watch) ∧
    (let s := onWindow 0 (fun w => { w with history := [.pass] , active := { w.active with burst := 2 } })
        (opened .guard .high none (within (.running .cycling)));
      let w := s.wmu.windows[0];
      inRun s = true ∧ s.stu.synced = true ∧ w.isOpen = true ∧ w.active.input = some 8 ∧ w.capture = none ∧
        w.active.role = .guard ∧ w.active.edge = .high ∧ bursts w = false) ∧
    (let s := opened .watch .high (some 150) (within (.running .cycling));
      let w := s.wmu.windows[0];
      inRun s = true ∧ s.stu.synced = true ∧ w.isOpen = true ∧ w.capture = some 150 ∧ w.active.role ≠ .guard ∧
        w.active.role ≠ .lead1 ∧ w.active.role ≠ .lead2) ∧
    (let s := opened .driver .high none (within (.running .cycling));
      let w := s.wmu.windows[0];
      inRun s = true ∧ s.stu.synced = true ∧ w.isOpen = true ∧ w.capture = none ∧ w.active.role ≠ .guard ∧
        windowApplies w s = false) ∧
    (let s := onWindow 0 (fun w => { w with active := { w.active with burst := 0 } })
        (opened .watch .low none (within (.running .cycling)));
      let w := s.wmu.windows[0];
      inRun s = true ∧ s.stu.synced = true ∧ w.isOpen = true ∧ w.capture = none ∧ w.active.role = .watch ∧
        bursts w = false) := by decide

/-- A head load in a run. -/
def headHolds (c : HeadContent) (f : HeadLoad → HeadLoad) (s : State) : State :=
  onWmu (fun w => { w with head := f { w.head with content := c } }) s

theorem witness_HeadLoadsAreDeliveredAndJudged :
    (State.reset.wmu.head.content = .unknown ∧ Table.wf ItemRecord.fresh State.reset.pgs.items = true) ∧
    (headHolds .empty id State.reset).wmu.head.content = .empty := by decide

/-- DIRECT in a run, with item 0 in the head that no OPEN has settled. -/
def unsettled (driven : Bool) : State :=
  headHolds (.item (item 0)) (fun h => { h with driveDone := driven }) (within (.running .cycling))

theorem witness_HeadLoadsAreDeliveredAndJudged_unsettled :
    ((unsettled false).wmu.head.content = .item (item 0) ∧ (unsettled false).wmu.head.driveDone = false) ∧
    ((unsettled true).wmu.head.content = .item (item 0) ∧ (unsettled true).wmu.head.driveDone = true ∧ item 1 ≠ item 0 ∧
      Table.wf ItemRecord.fresh (unsettled true).pgs.items = true) ∧
    ((deliver (.item (item 0)) State.reset).wmu.head.content = .unknown ∧
      (deliver (.item (item 0)) State.reset).wmu.head.returned = true) := by decide

/-- R57 and R76: an item that no OPEN has settled leaves the head at INDEX, so that one item at most is in state HEAD. -/
theorem test_unsettled_item_leaves_the_head :
    (itemRec (item 0) (deliver (.item (item 1)) (unsettled false))).state = .redo ∧
    (itemRec (item 1) (deliver (.item (item 1)) (unsettled false))).state = .redo ∧
    (itemRec (item 0) (deliver (.item (item 1)) (unsettled true))).state = .suspect ∧
    (itemRec (item 1) (deliver (.item (item 1)) (unsettled true))).state = .head := by decide

/-- R58: the outcome of an item returned over an uncleared head is RETURNED. -/
theorem test_item_returned_by_its_delivery_is_returned :
    headOutcome (deliver (.item (item 0)) (within (.running .cycling))) = .returned ∧
    headOutcome (deliver .surplus (within (.running .cycling))) = .held := by decide

theorem witness_HeadLoadsAreDeliveredAndJudged_leads :
    (let s := onWindow 0 (fun w => { w with active := { w.active with role := .lead1 } })
        (headHolds (.item (item 0)) (fun h => { h with driveDone := true, lead1 := .missed }) (within (.running .cycling)));
      s.wmu.windows[0].active.role = .lead1 ∧ s.wmu.head.lead1 = .missed ∧ s.wmu.head.driveDone = true) ∧
    (let s := onWindow 0 (fun w => { w with active := { w.active with role := .lead1 } })
        (onWindow 1 (fun w => { w with active := { w.active with role := .lead2 } })
          (onWmu (fun w => { w with skewLimit := 1023 })
            (headHolds (.item (item 0)) (fun h => { h with driveDone := true, lead1 := .captured 0, lead2 := .captured 1024 })
              (within (.running .cycling)))));
      s.wmu.head.lead1 = .captured 0 ∧ s.wmu.head.lead2 = .captured 1024 ∧ s.wmu.windows[0].active.role = .lead1 ∧
        s.wmu.windows[1].active.role = .lead2 ∧ s.wmu.skewLimit ≠ 0 ∧
        s.wmu.skewLimit < min ((0 : Angle) - 1024).toNat ((1024 : Angle) - 0).toNat) ∧
    (let s := onWindow 0 (fun w => { w with active := { w.active with role := .lead1 } })
        (headHolds (.item (item 0)) (fun h => { h with driveDone := true, lead1 := .captured 0 }) (within (.running .cycling)));
      s.wmu.windows[0].active.role = .lead1 ∧ s.wmu.head.lead1 = .captured 0 ∧ s.wmu.head.partMissed = false ∧
        (∀ n : Fin 12, s.wmu.windows[n].active.role ≠ .lead2)) := by decide

theorem witness_InputEdgesReachTheirOwners :
    (State.reset.lnk.trailing = [] ∧ inDwell State.reset = false ∧
      (∀ n : Fin 12, State.reset.wmu.windows[n].isOpen = false) ∧
      (∀ i : ChannelNo, State.reset.stu.channels[i].trigger ≠ .opened) ∧
      State.reset.wmu.inputs[(11 : InputNo)].accepted = (Edge.fall == .rise) ∧
      State.reset.wmu.inputs[(0 : InputNo)].accepted ≠ (Edge.rise == .rise) ∧
      State.reset.wmu.inputs[(6 : InputNo)].accepted = false ∧ State.reset.wmu.inputs[(7 : InputNo)].accepted = false ∧
      State.reset.pgs.boardAway = false ∧ inRun State.reset = false) ∧
    ((high 6 State.reset).wmu.inputs[(6 : InputNo)].accepted = true ∧ (high 6 State.reset).pgs.panel = none) ∧
    (let s := high 6 (panelOpen .tapeIn (within .stopped));
      s.lnk.trailing = [] ∧ inDwell s = false ∧ s.wmu.inputs[(6 : InputNo)].accepted = true ∧ s.pgs.panel = some .tapeIn) ∧
    (let s := onPgs (fun p => { p with boardAway := true }) State.reset;
      s.wmu.inputs[(6 : InputNo)].accepted = false ∧ s.pgs.boardAway = true ∧ isRunning s = false) ∧
    (let s := onTmu (fun t => { t with mapLength := 1 }) (running (.running .cycling) .tapeIn);
      s.lnk.trailing = [] ∧ inDwell s = false ∧ s.wmu.inputs[(7 : InputNo)].accepted = false ∧ inRun s = true ∧
        runMode s = some .tapeIn ∧ s.tmu.position < s.tmu.mapLength ∧
        (∀ n : Fin 12, s.wmu.windows[n].isOpen = false) ∧ (∀ i : ChannelNo, s.stu.channels[i].trigger ≠ .opened)) ∧
    ((high 7 State.reset).wmu.inputs[(7 : InputNo)].accepted = true ∧ (high 7 State.reset).msv.dwell.tape = false) := by
  decide

/-! ### The chain and the dispensers -/

/-- A slot at the verifier, V = 50. -/
def atV (c : Slot) (s : State) : State := onSqc (fun q => { q with chain := q.chain.set 49 c }) s

/-- The verdict window open, undecided. -/
def undecided (s : State) : State := onSqc (fun q => { q with verdict := .undecided, vsel := 0 }) s

/-- Dispenser 0 enabled, of a class, with a history and a failure count. -/
def dispensing (c : DispenserClass) (h : List VCode) (f : Nat) (s : State) : State :=
  onDispenser 0 (fun d => { d with state := .enabled, cls := c, history := h, failures := f }) s

theorem witness_VerdictsJudgeTheSlot :
    (State.reset.lnk.trailing = [] ∧ State.reset.pgs.panel = none ∧ State.reset.sqc.vstrobe.accepted = false ∧
      State.reset.sqc.verdict ≠ .undecided) ∧
    (panelOpen .direct (program 1 State.reset)).pgs.panel.isSome = true ∧
    anyUnfinished (panelOpen .direct (program 1 State.reset)) = true ∧
    (onSqc (fun q => { q with vstrobe := up }) State.reset).sqc.vstrobe.accepted = true ∧
    (let s := atV ⟨.item (item 0) .loaded, false, false⟩ (undecided (within (.running .cycling)));
      s.lnk.trailing = [] ∧ s.pgs.panel = none ∧ s.sqc.vstrobe.accepted = false ∧ s.sqc.verdict = .undecided ∧
        (slotAt s.sqc.v s).content = .item (item 0) .loaded) ∧
    (let s := undecided (within (.running .cycling));
      s.sqc.vstrobe.accepted = false ∧ s.sqc.verdict = .undecided ∧ (slotAt s.sqc.v s).content = .unknown) ∧
    (State.reset.sqc.dispensers[0].state ≠ .enabled) ∧
    (let s := dispensing .plain [.noPart, .noPart] 0 State.reset;
      s.sqc.dispensers[(stepOf (item 0) s).dispenser].state = .enabled ∧ s.store.depletion ≤ [VCode.noPart, .noPart, .noPart].count .noPart) ∧
    (let s := dispensing .plain [.noPart] 0 State.reset;
      s.sqc.dispensers[0].state = .enabled ∧ ¬ s.store.depletion ≤ [VCode.noPart, .noPart].count .noPart) ∧
    (let s := dispensing .polarized [.failPolarity] 1 State.reset;
      s.sqc.dispensers[0].state = .enabled ∧ s.sqc.dispensers[0].cls = .polarized ∧ s.store.suspect ≤ 1 + 1) := by decide

theorem witness_SlotsMoveUpAndAreAssigned :
    (State.reset.sqc.chain.length = 56 ∧ (slotAt 1 State.reset).content = .unknown ∧ (slotAt 1 State.reset).stray = false ∧
      0 + 1 ≠ State.reset.sqc.v) ∧
    (let s := atV ⟨.item (item 0) .passed, false, true⟩ State.reset;
      49 + 1 = s.sqc.v ∧ 49 + 1 < s.sqc.chain.length ∧ (slotAt 50 s).content = .item (item 0) .passed ∧
        (slotAt 50 s).stray = false ∧ (slotAt 50 s).judged = true) ∧
    (1 ≠ State.reset.sqc.v ∧ 1 ≠ State.reset.sqc.r ∧
      State.reset.sqc.dispensers[(stepOf (item 0) State.reset).dispenser].position = 1) ∧
    (State.reset.sqc.v ≠ State.reset.sqc.r ∧ State.reset.pgs.panel = none) ∧
    (let s := onStore (fun t => { t with hx := 0, hy := 0 }) (dispensing .plain [] 0 (panelOpen .direct (program 2 State.reset)));
      s.pgs.panel.isSome = true ∧ (searchRedo s [item 0]).chosen = some (item 0) ∧
        (searchPending s false [item 0, item 1]).chosen = some (item 0) ∧ (assignSearch s).chosen = some (item 0)) ∧
    (let s := onStore (fun t => { t with steps := [(0, { StepRecord.reset with barrier := true })] })
        (dispensing .plain [] 0 (panelOpen .direct (program 1 State.reset)));
      (searchPending s false [item 0]).chosen = some (item 0) ∧ (stepOf (item 0) s).barrier = true) ∧
    (let s := onSqc (fun q => { q with redo := [item 0] }) (dispensing .plain [] 0 (panelOpen .direct (program 1 State.reset)));
      (searchRedo s s.sqc.redo).chosen = some (item 0)) ∧
    ((searchPending State.reset false [item 0]).chosen = none ∧ (stepOf (item 0) State.reset).barrier = false ∧
      (itemRec (item 0) State.reset).state = .pending) := by decide

/-- A stray slot, and a REJECTED one that R does not stop. -/
def straySlot : Slot := ⟨.empty, true, true⟩
def rejectedSlot : Slot := ⟨.item (item 0) .rejected, false, true⟩

theorem witness_SlotsMoveUpAndAreAssigned_stations :
    (State.reset.sqc.v ≠ State.reset.sqc.r ∧ Slot.unknown.judged = false ∧ Slot.unknown.content = .unknown) ∧
    ((⟨.item (item 0) .passed, false, false⟩ : Slot).judged = false ∧ rejectedSlot.judged = true) ∧
    (straySlot.stray = true ∧ straySlot.content = .empty ∧ rejectedSlot.content = .item (item 0) .rejected) ∧
    (inRun (within (.running .cycling)) = true ∧ runMode (within (.running .cycling)) = some .direct ∧
      runMode (running .stopping .tapeOut) = some .tapeOut ∧ inRun State.reset = false) := by decide

theorem witness_SlotsMoveUpAndAreAssigned_stray : ∀ i, straySlot.content ≠ .item i .assigned ∧
    rejectedSlot.content ≠ .item i .assigned := by
  intro i; constructor <;> simp [straySlot, rejectedSlot]

theorem witness_SlotsMoveUpAndAreAssigned_search :
    let s := dispensing .plain [] 0 (panelOpen .tapeOut (program 3 (onStore (fun t => { t with steps :=
      [(0, { StepRecord.reset with dispenser := 1 }), (2, { StepRecord.reset with barrier := true })] }) State.reset)))
    (s.sqc.dispensers[(stepOf (item 0) s).dispenser].state = .disabled ∧
      s.sqc.dispensers[(stepOf (item 1) s).dispenser].state = .enabled ∧ runMode s ≠ some .direct ∧
      (searchRedo s ([item 0] ++ item 1 :: [])).chosen = some (item 1) ∧ (searchRedo s [item 0]).chosen = none) ∧
    ((itemRec (item 0) s).state = .pending ∧ (stepOf (item 0) s).barrier = false ∧
      (itemRec (item 1) s).state = .pending ∧ (stepOf (item 1) s).barrier = false) ∧
    ((stepOf (item 2) s).barrier = true ∧ unfinishedIn s.pgs.panel (itemRec (item 0) s).state = true ∧
      (itemRec (item 2) s).state = .pending ∧ (searchPending s false ([item 0] ++ item 2 :: [])).chosen = none) ∧
    (s.pgs.panel.isSome = true ∧ (searchRedo s s.sqc.redo).chosen = none ∧ (assignSearch s).chosen = some (item 1) ∧
      (assignSearch (panelOpen .tapeOut (program 1 State.reset))).chosen = none ∧
      Table.wf ItemRecord.fresh s.pgs.items = true) := by decide

/-- A frame of dispensers 0 and 1 with their slots ASSIGNED; dispenser 1 is not ENABLED. -/
def frameOfTwo : State :=
  let own (n : Fin 1024) : Slot := ⟨.item (item n) .assigned, false, false⟩
  onSqc (fun q => { q with frame := some [0, 1], chain := (q.chain.set 0 (own 0)).set 1 (own 1) })
    (dispensing .plain [] 0 (within (.running .cycling)))

theorem witness_TheFireFrameIsComposedAndFired_several :
    (let s := frameOfTwo;
      let frame : List (Fin 48) := [0, 1];
      inRun s = true ∧ s.sqc.frame = some (frame.map (·.val)) ∧ frame.Nodup ∧
        (∀ d ∈ frame, 1 ≤ s.sqc.dispensers[d].position) ∧
        (∀ d ∈ frame, ∀ e ∈ frame, d ≠ e → s.sqc.dispensers[d].position ≠ s.sqc.dispensers[e].position) ∧
        s.sqc.dispensers[0].state = .enabled ∧ s.sqc.dispensers[1].state ≠ .enabled) ∧
    (let s := onSqc (fun q => { q with frame := some [] }) (within .stopping);
      inRun s = true ∧ s.sqc.frame = some []) := by decide

theorem witness_TheFireFrameIsComposedAndFired :
    (inRun State.reset = false ∧ State.reset.sqc.frame = none) ∧
    (let s := dispensing .plain [] 0 State.reset;
      [(⟨.item (item 0) .assigned, false, false⟩ : Slot)][0]? = some ⟨.item (item 0) .assigned, false, false⟩ ∧
        s.sqc.dispensers[(stepOf (item 0) s).dispenser].position = 0 + 1 ∧
        s.sqc.dispensers[(stepOf (item 0) s).dispenser].state = .enabled) ∧
    (let s := onSqc (fun q => { q with frame := some [0], chain := q.chain.set 0 ⟨.item (item 0) .assigned, false, false⟩ })
        (dispensing .plain [] 0 (within (.running .cycling)));
      inRun s = true ∧ s.sqc.frame = some [(0 : Fin 48).val] ∧
        slotAt s.sqc.dispensers[0].position s = ⟨.item (item 0) .assigned, false, false⟩ ∧
        s.sqc.dispensers[0].state = .enabled) ∧
    (let s := onSqc (fun q => { q with frame := some [0], chain := q.chain.set 0 ⟨.item (item 0) .assigned, false, false⟩ })
        (within .stopping);
      inRun s = true ∧ s.sqc.frame = some [(0 : Fin 48).val] ∧
        slotAt s.sqc.dispensers[0].position s = ⟨.item (item 0) .assigned, false, false⟩ ∧
        s.sqc.dispensers[0].state ≠ .enabled) := by decide

theorem witness_ReturnedItemsAreQueuedOrPend :
    (Table.wf ItemRecord.fresh State.reset.pgs.items = true ∧ State.reset.msv.run = none ∧ State.reset.pgs.panel = none) ∧
    (let s := running (.running .cycling) .tapeOut;
      Table.wf ItemRecord.fresh s.pgs.items = true ∧ runMode s = some .tapeOut ∧ s.sqc.redo.length < 16) ∧
    (let s := onSqc (fun q => { q with redo := List.replicate 16 (item 1) }) (within (.running .cycling));
      runMode s = some .direct ∧ ¬ s.sqc.redo.length < 16) ∧
    (let s := onPgs (fun p => { p with items := [(0, ⟨.chained, 2, none⟩)] }) (within (.running .cycling));
      Table.wf ItemRecord.fresh s.pgs.items = true ∧ (itemRec (item 0) s).tries + 1 = s.pgs.active.maxTries) ∧
    ((itemRec (item 0) State.reset).tries + 1 ≠ State.reset.pgs.active.maxTries) := by decide

theorem witness_FixedPulsesAndFallsEnd_lamps :
    (within (.running .cycling)).msv.state = .running .cycling ∧ (within .stopping).msv.state = .stopping ∧
    ((∀ sub, State.reset.msv.state ≠ .running sub) ∧ State.reset.msv.state ≠ .stopping) := by
  refine ⟨by decide, by decide, fun sub => by cases sub <;> decide, by decide⟩

theorem witness_FixedPulsesAndFallsEnd :
    State.reset.tmu.gap = none ∧ (onTmu (fun t => { t with gap := some (true, 49) }) State.reset).tmu.gap.isSome = true ∧
    (let s := onTmu (fun t => { t with gapHeld := [true], gapWait := some 9 }) State.reset;
      s.tmu.gap = none ∧ s.tmu.gapHeld = true :: []) ∧ State.reset.tmu.gapHeld = [] ∧
    (State.reset.lnk.trailing = [] ∧ State.reset.msv.faultPending = false) ∧
    (let s := onMsv (fun m => { m with faultPending := true }) (within (.running .cycling));
      s.lnk.trailing = [] ∧ s.msv.faultPending = true) := by decide

/-! ### Axes -/

/-- A search by an axis. -/
def searching (a : Axis) (back : Bool) (issued : Nat) (s : State) : State :=
  onAxis a (fun r => { r with state := .homing, drive := .search back 2 issued false false }) s

theorem witness_HomingEndsWithEverythingHome :
    (State.reset.lnk.trailing = [] ∧ State.reset.msv.state ≠ .homing ∧ State.reset.msv.home ≠ some true) ∧
    (let s := homing (homed State.reset);
      s.lnk.trailing = [] ∧ s.msv.state = .homing ∧ s.msv.home = some false ∧ s.mot.x.homed = true ∧
        s.mot.y.homed = true ∧ s.mot.span.homed = true ∧ s.mot.rot.homed = true ∧ s.mot.x.homePending = false ∧
        s.mot.y.homePending = false ∧ s.mot.span.homePending = false ∧ s.mot.rot.homePending = false ∧
        s.msv.single = none ∧ s.msv.atRest = true ∧ s.stu.synced = false ∧ s.msv.offHome = true) ∧
    (let s := onMsv (fun m => { m with offHome := false }) (syncedAt 0 (homing (homed State.reset)));
      s.stu.synced = true ∧ s.msv.offHome = false) ∧
    (let s := onMsv (fun m => { m with home := some true }) (within .homing);
      s.lnk.trailing = [] ∧ s.msv.home = some true ∧ s.msv.atRest = true ∧ s.msv.trip = false ∧
        motionInFlight s = false ∧ s.mot.x.state ≠ .homing ∧ s.mot.y.state ≠ .homing ∧ s.mot.span.state ≠ .homing ∧
        s.mot.rot.state ≠ .homing ∧ s.msv.state = .homing) := by decide

theorem witness_HomingEndsWithEverythingHome_inputs :
    (let s := searching .x false 0 (searching .y false 0 (homing State.reset));
      s.lnk.trailing = [] ∧ (s.mot.axis .y).state = .homing ∧ (s.mot.axis .y).drive = .search false 2 0 false false ∧
        (s.mot.axis .x).homeInput.accepted = false ∧ (s.mot.axis .x).state = .homing ∧
        (s.mot.axis .x).drive = .search false 2 0 false false) ∧
    (let s := onAxis .x (fun r => { r with homeInput := up }) (searching .x true 0 (searching .y false 0 (homing State.reset)));
      (s.mot.axis .x).homeInput.accepted = true ∧ (s.mot.axis .x).drive = .search true 2 0 false false) ∧
    (let s := searching .y false 0 (homing State.reset);
      (s.mot.axis .span).homeInput.accepted = false ∧ (s.mot.axis .span).state ≠ .homing ∧
        (s.mot.axis .span).drive = .idle) ∧
    (let s := searching .x false 49997 (searching .y false 0 (homing State.reset));
      (s.mot.axis .x).state = .homing ∧ serves .x s = true ∧ 49997 < (s.mot.axis .x).searchLimit ∧
        49997 + 2 < (s.mot.axis .x).searchLimit ∧ inDwell s = false) ∧
    (let s := searching .x false 49999 (searching .y false 0 (homing State.reset));
      (s.mot.axis .x).drive = .search false 2 49999 false false ∧ serves .x s = true ∧
        49999 < (s.mot.axis .x).searchLimit ∧ (s.mot.axis .x).searchLimit ≤ 49999 + 2 ∧
        s.fau.capture.locked = false) := by decide

theorem witness_HomingEndsWithEverythingHome_back_off :
    let s := onAxis .x (fun r => { r with drive := .search true 2 5 true false }) (searching .x true 5 (searching .y false 0 (homing State.reset)));
    s.lnk.trailing = [] ∧ s.mot.y.state = .homing ∧ s.mot.x.homeInput.accepted = false ∧
      s.mot.x.drive = .search true 2 5 true false := by decide

/-- R138: a rise in the tick in which a back-off was to turn round lets it go on; without one it turns. -/
theorem test_back_off_goes_on_after_a_rise :
    (after (.generatorTick .a) (after (.homeInputRise .x)
      (onAxis .x (fun r => { r with drive := .search true 2 5 true false }) (searching .x true 5 (homing State.reset))))).mot.x.drive =
      .search true 2 7 false false ∧
    (after (.generatorTick .a)
      (onAxis .x (fun r => { r with drive := .search true 2 5 true false }) (searching .x true 5 (homing State.reset)))).mot.x.drive =
      .search false 2 7 false false := by decide

theorem witness_TickProfilesCoverTheirDistance : Rates.reset.Sound ∧ 1 ≤ 1 ∧ 1 ≤ Rates.reset.rs :=
  ⟨⟨by decide, by decide, by decide⟩, by decide, by decide⟩

/-- A plan that moves ROT and SPAN, and one that moves X alone. -/
def planRot : Plan :=
  { item := some (item 0)
    legs := [⟨.span, 1000, 1000, true, .reset, tickProfile .reset 1000⟩, ⟨.rot, 1600, 1600, true, .reset, tickProfile .reset 1600⟩]
    verdict := .fit, openMet := true }
def planX : Plan := { planRot with legs := [⟨.x, 4, 4, true, .reset, [2, 2]⟩] }

theorem witness_PlansStartAndGeneratorCIsHandedOn :
    (State.reset.lnk.trailing = [] ∧ State.reset.mot.held = none ∧ State.reset.mot.cGap = none ∧
      State.reset.mot.x.drive = .idle) ∧
    (let s := onMot (fun m => { m with held := some { planX with openMet := false } }) (homed State.reset);
      s.mot.held = some { planX with openMet := false } ∧ ({ planX with openMet := false } : Plan).openMet = false) ∧
    (let s := onMot (fun m => { m with held := some planRot }) (homed State.reset);
      s.lnk.trailing = [] ∧ s.mot.held = some planRot ∧ planRot.openMet = true ∧ motionInFlight s = false ∧
        (∀ l ∈ planRot.legs, (s.mot.axis l.axis).state = .idle) ∧ s.mot.cAxis = none ∧ s.mot.cGap = none ∧
        (planRot.legs.map (·.axis)).Nodup) ∧
    (let s := onMot (fun m => { m with held := some planX }) (homed State.reset);
      s.mot.held = some planX ∧ planX.openMet = true ∧ motionInFlight s = false ∧
        (∀ l ∈ planX.legs, (s.mot.axis l.axis).state = .idle ∧ l.axis ≠ .rot ∧ l.axis ≠ .span)) ∧
    (let s := onAxis .x (fun r => { r with stagedFlag := true }) (searching .x false 0 State.reset);
      (s.mot.axis .x).drive ≠ .idle ∧ (s.mot.axis .x).stagedFlag = true) ∧
    (let s := onMot (fun m => { m with cGap := some 0, span := { m.span with state := .moving, drive := .profile true [1] } })
        State.reset;
      s.mot.cGap.isSome = true ∧ s.mot.span.state = .moving ∧ s.mot.span.drive = .profile true [1]) ∧
    (let s := onMot (fun m => { m with cGap := some 0 }) State.reset;
      s.mot.cGap.isSome = true ∧ s.mot.span.state ≠ .moving ∧ s.msv.home ≠ some false) := by decide

/-- X moving with the ticks of a profile, at a position. -/
def movingX (p : Bool) (l : List Nat) (c : Int) (s : State) : State :=
  onAxis .x (fun r => { r with state := .moving, drive := .profile p l, commanded := c }) s

/-- A RUNNING plan on X, settling. -/
def settling (s : State) : State :=
  onAxis .x (fun r => { r with state := .settling })
    (onMot (fun m => { m with running := some planX, settle := some ⟨5, 4, 0⟩ }) (homed s))

theorem witness_SettleEndsChecksTheFollowing :
    (State.reset.lnk.trailing = [] ∧ State.reset.mot.settle = none ∧ State.reset.mot.running = none ∧
      State.reset.mot.serviceSettle = none ∧ inDwell State.reset = false) ∧
    (let s := onAxis .x (fun r => { r with feedback := 8 }) (settling (within (.running .dwell)));
      s.lnk.trailing = [] ∧ s.mot.running = some planX ∧ s.mot.settle = some ⟨5, 4, 0⟩ ∧
        ¬ s.mot.x.following < (s.mot.x.feedback - s.mot.x.commanded).natAbs ∧
        ¬ s.mot.y.following < (s.mot.y.feedback - s.mot.y.commanded).natAbs ∧ s.mot.held = none ∧ s.msv.home = none ∧
        (planX.legs.map (·.axis)).Nodup ∧ s.msv.state = .running .dwell ∧ s.msv.atRest = true) ∧
    (let s := onAxis .x (fun r => { r with feedback := -9 }) (settling (within (.running .cycling)));
      s.lnk.trailing = [] ∧ s.mot.running = some planX ∧ s.mot.settle = some ⟨5, 4, 0⟩ ∧ s.mot.x.homed = true ∧
        s.mot.x.following < (s.mot.x.feedback - s.mot.x.commanded).natAbs ∧ s.mot.service = none ∧
        s.fau.capture.locked = false) ∧
    (operating (.loop .x true 2 0 0 0 0 .none) (within .service)).mot.service = some (.loop .x true 2 0 0 0 0 .none) ∧
    State.reset.mot.service = none := by decide

/-! ### Landmarks, windows and panels in a run -/

/-- Item 0 passed at Q = 56, at the head point, with the axes at or near its targets. -/
def passedAtQ (s : State) : State :=
  onSqc (fun q => { q with chain := q.chain.set 55 ⟨.item (item 0) .passed, false, true⟩ })
    (onAxis .span (fun r => { r with commanded := 1000 }) (onStore (fun t => { t with hx := 4, hy := 0 }) (homed s)))

theorem witness_CrossingsFireTheLandmarks_lateTable :
    (let s := before .close (within (.running .cycling));
      s.lnk.trailing = [] ∧ s.stu.synced = true ∧ s.stu.retrace = 0 ∧ s.msv.single = none ∧ inDwell s = false ∧
        s.stu.pointer = some .close ∧ s.stu.angle + 1 = s.store.landmarks.angleOf .close ∧ s.stu.angle + 1 ≠ 0 ∧
        (∀ n : Fin 12, s.wmu.windows[n].active.role = .unused) ∧ inRun s = true ∧ anyMoving s = false) ∧
    inRun State.reset = false ∧
    (let s := movingX true [2, 2] 0 (within .stopping);
      inRun s = true ∧ anyMoving s = true ∧ s.wmu.head.content = .unknown) ∧
    (let s := headGood (movingX true [2, 2] 0 (within (.running .cycling)));
      inRun s = true ∧ anyMoving s = true ∧ s.wmu.head.content = .item (item 0)) ∧
    (let s := settling (within (.running .cycling));
      s.mot.service = none ∧ s.mot.running = some planX ∧ s.mot.settle = some ⟨5, 4, 0⟩) ∧
    (let s := onMot (fun m => { m with running := some planX }) (movingX true [2, 2] 0 (within (.running .cycling)));
      s.mot.service = none ∧ s.mot.running = some planX ∧ s.mot.settle = none ∧ (s.mot.axis .x).drive = .profile true [2, 2] ∧
        planX.legs.map (·.axis) = [.x]) := by decide

theorem witness_CrossingsFireTheLandmarks_plan :
    (let s := passedAtQ (tripOn (within (.running .cycling)));
      runMode s = some .direct ∧ (slotAt s.sqc.q s).content = .item (item 0) .passed ∧ reach (item 0) s = 0 ∧
        legsOf (item 0) s ≠ [] ∧ motionInFlight s = false ∧ (commitPlan s).2 = .fit ∧
        s.msv.state = .running .cycling ∧ s.msv.finishing = false ∧ s.msv.faultPending = false ∧ s.msv.trip = true ∧
        s.msv.dwell = .none) ∧
    (let s := onMot (fun m => { m with running := some planRot }) (passedAtQ (tripOn (within (.running .cycling))));
      (slotAt s.sqc.q s).content = .item (item 0) .passed ∧ reach (item 0) s = 0 ∧ legsOf (item 0) s ≠ [] ∧
        motionInFlight s = true ∧ (commitPlan s).2 = .noFit) ∧
    (let s := onTmu (fun t => { t with mark := some (item 0) }) (passedAtQ (running (.running .cycling) .tapeIn));
      runMode s = some .tapeIn ∧ s.tmu.mark = some (item 0)) ∧
    (let s := onAxis .x (fun r => { r with commanded := 4 }) (passedAtQ (within (.running .cycling)));
      (slotAt s.sqc.q s).content = .item (item 0) .passed ∧ reach (item 0) s = 0 ∧ legsOf (item 0) s = []) ∧
    (let s := onStore (fun t => { t with steps := [(0, { StepRecord.reset with x := 5 })] })
        (passedAtQ (within (.running .cycling)));
      (slotAt s.sqc.q s).content = .item (item 0) .passed ∧ reach (item 0) s ≠ 0 ∧ s.pgs.panel ≠ some .tapeOut ∧
        Table.wf ItemRecord.fresh s.pgs.items = true) ∧
    (let s := within (.running .cycling);
      (slotAt s.sqc.q s).content = .unknown ∧ s.tmu.mark = none ∧ s.mot.running = none ∧ (s.mot.axis .rot).drive = .idle ∧
        internalLoop .rot s = false ∧ 0 ≤ (s.mot.axis .rot).commanded ∧ (s.mot.axis .rot).commanded < 6400) ∧
    (let s := onAxis .x (fun r => { r with commanded := 45000 }) (within (.running .cycling));
      s.mot.running = none ∧ (s.mot.axis .x).drive = .idle ∧ -65536 ≤ (s.mot.axis .x).commanded ∧
        (s.mot.axis .x).commanded ≤ 131071) ∧
    (let s := onMot (fun m => { m with running := some planX }) State.reset;
      s.mot.running = some planX ∧ s.mot.held = none ∧ (planX.legs.find? fun l => l.axis == .x).isSome = true) ∧
    (let s := onMot (fun m => { m with running := some planRot, held := some planX }) State.reset;
      s.mot.running = some planRot ∧ s.mot.held = some planX ∧ (planX.legs.find? fun l => l.axis == .x).isSome = true ∧
        ∀ k ∈ planX.legs, k.axis ≠ .span) := by decide

/-- The sequenced tape: a map, the position in it, a mark. -/
def taped (map : Table TapeEntry) (length position : Nat) (mark : Option Item) (s : State) : State :=
  onTmu (fun t => { t with map := map, mapLength := length, position := position, mark := mark }) s

/-- A panel of tape-in, with item 0 PENDING. -/
def tapeIn0 (s : State) : State := panelOpen .tapeIn (program 1 (onStore (fun t => { t with hx := 4, hy := 0 }) s))

theorem witness_CrossingsFireTheLandmarks_tape :
    (let s := taped [] 4095 0 none (running (.running .cycling) .tapeOut);
      runMode s = some .tapeOut ∧ s.tmu.mapLength < 4096) ∧
    (4096 ≤ (taped [] 4096 0 none State.reset).tmu.mapLength) ∧
    ((⟨.item (item 0) .passed, false, true⟩ : Slot).content = .item (item 0) .passed ∧
      (⟨.empty, true, false⟩ : Slot).stray = true ∧ Slot.unknown.content = .unknown) ∧
    (let s := taped [(0, .item (item 0))] 1 0 none (tapeIn0 (running (.running .cycling) .tapeIn));
      inRun s = true ∧ runMode s = some .tapeIn ∧ entryAt 0 s = .item (item 0) ∧ s.pgs.panel.isSome = true ∧
        (item 0).step.val < s.store.stepCount ∧ (s.pgs.active.image (item 0).image).enabled = true ∧
        (itemRec (item 0) s).state = .pending ∧ reach (item 0) s = 0 ∧ entryAt 1 s = .blank) ∧
    (let s := onStore (fun t => { t with steps := [(0, { StepRecord.reset with x := 5 })] })
        (taped [(0, .item (item 0))] 1 0 none (tapeIn0 (running (.running .cycling) .tapeIn)));
      entryAt 0 s = .item (item 0) ∧ (itemRec (item 0) s).state = .pending ∧ reach (item 0) s ≠ 0 ∧
        s.pgs.panel ≠ some .tapeOut ∧ Table.wf ItemRecord.fresh s.pgs.items = true) ∧
    (inRun (within .stopping) = true ∧ runMode (within .stopping) = some .direct ∧ inRun State.reset = false) ∧
    (let s := taped [(0, .item (item 0))] 4096 0 (some (item 0)) (tapeIn0 (running (.running .cycling) .tapeIn));
      s.tmu.position < s.tmu.mapLength ∧ entryAt s.tmu.position s = .item (item 0) ∧ s.tmu.mark = some (item 0) ∧
        s.pgs.panel.isSome = true ∧ (itemRec (item 0) s).state = .pending) ∧
    (let s := taped [(4095, .panelEnd)] 4096 4095 none (running (.running .cycling) .tapeIn);
      s.tmu.position < s.tmu.mapLength ∧ entryAt s.tmu.position s = .panelEnd) ∧
    (let s := taped [] 4096 4096 none (tapeIn0 (running (.running .cycling) .tapeIn));
      s.tmu.mapLength ≤ s.tmu.position ∧ s.tmu.mapEnd = false ∧ tapeEnd s = false ∧ s.pgs.panel = some .tapeIn ∧
        countState .pending s ≠ 0 ∧ s.msv.state = .running .cycling) ∧
    (let s := onTmu (fun t => { t with mapEnd := true }) (taped [] 3 3 none (running .stopping .tapeIn));
      s.tmu.mapLength ≤ s.tmu.position ∧ s.tmu.mapEnd = true ∧ s.pgs.panel = none ∧ s.msv.state = .stopping) := by decide

theorem witness_ChannelsSwitchByAngleAndEdge_commands :
    (let s := onChannel 1 (fun c => { c with command := true }) State.reset;
      s.stu.channels[1].command = true ∧ ¬ State.reset.wmu.head.good = true) ∧
    (let s := headGood (within (.running .cycling));
      s.wmu.head.content = .item (item 0) ∧ s.wmu.head.good = true) ∧
    (let s := headGood (syncedAt 0 (within (.running .cycling)));
      maySwitch 0 s = true ∧ s.msv.state ≠ .service ∧ s.stu.channels[0].active.mode = .angle 128 1600 ∧
        (128 : Angle) ≠ 1600 ∧ s.stu.channels[0].command = false ∧ gateOpen 0 s = true ∧
        ∀ j : ChannelNo, s.stu.channels[j].command = false) ∧
    (let s := onMot (fun m => { m with settled := true }) (headGood (syncedAt 0 (within (.running .cycling))));
      maySwitch 3 s = true ∧ s.stu.channels[3].active.mode = .angle 1024 1792 ∧ s.stu.channels[3].command = false ∧
        gateOpen 3 s = true) ∧
    (let s := headHolds (.surplus) id (syncedAt 0 (within (.running .cycling)));
      maySwitch 5 s = true ∧ s.stu.channels[5].active.mode = .angle 2048 2304 ∧ s.stu.channels[5].command = false ∧
        gateOpen 5 s = true) ∧
    (let s := onChannel 6 (fun c => { c with active := ⟨.angle 10 20, 300⟩ }) (strayAtR (syncedAt 0 (within (.running .cycling))));
      s.stu.channels[6].active.mode = .angle 10 20 ∧ maySwitch 6 s = true ∧ s.stu.channels[6].command = false ∧ gateOpen 6 s = true) ∧
    (let s := syncedAt 0 (within (.running .cycling));
      maySwitch 7 s = true ∧ s.stu.channels[7].command = false ∧ gateOpen 7 s = true ∧ gateOpen 3 s = false) ∧
    (let s := syncedAt 0 (running (.running .cycling) .tapeIn);
      maySwitch 8 s = true ∧ s.stu.channels[8].command = false ∧ gateOpen 8 s = true) := by decide

theorem witness_IndexMarksSynchronizeAndCorrect_forward :
    (let s := onStu (fun u => { u with retrace := 1 }) (indexed 4092 State.reset);
      s.stu.synced = true ∧ (s.stu.angle - s.store.landmarks.offset).toInt = -4 ∧
        (-(-4) : Int) ≤ s.store.landmarks.tolerance ∧ 0 < s.stu.retrace) ∧
    (let s := indexed 4091 State.reset;
      s.stu.synced = true ∧ (s.stu.angle - s.store.landmarks.offset).toInt = -5 ∧
        (s.store.landmarks.tolerance : Int) < -(-5) ∧ s.stu.retrace = 0) := by decide

theorem witness_WindowsOpenCaptureAndClose_guard :
    (let s := high 8 (watching .guard .high (within (.running .cycling)));
      let w := s.wmu.windows[0];
      inRun s = true ∧ s.stu.synced = true ∧ w.isOpen = false ∧ w.active.lo ≠ w.active.hi ∧ w.active.input = some 8 ∧
        w.active.role = .guard ∧ w.active.edge = .high ∧ s.wmu.inputs[8].accepted = true ∧ bursts w = true) ∧
    (let s := onWindow 0 (fun w => { w with history := List.replicate 16 .pass }) (opened .guard .fall none (within .stopping));
      let w := s.wmu.windows[0];
      inRun s = true ∧ s.stu.synced = true ∧ w.isOpen = true ∧ w.active.input = some 8 ∧ w.capture = none ∧
        w.active.role = .guard ∧ w.active.edge = .fall ∧ bursts w = true) ∧
    (let s := opened .guard .high (some 150) (within (.running .cycling));
      let w := s.wmu.windows[0];
      inRun s = true ∧ s.stu.synced = true ∧ w.isOpen = true ∧ w.capture.isSome = true ∧ w.active.role = .guard) ∧
    (let s := headHolds (.item (item 0)) (fun h => { h with driveDone := true }) (opened .lead1 .high (some 150) (within .stopping));
      let w := s.wmu.windows[0];
      inRun s = true ∧ s.stu.synced = true ∧ w.isOpen = true ∧ w.capture = some 150 ∧ w.active.role = .lead1 ∧
        s.wmu.head.content = .item (item 0) ∧ s.wmu.head.driveDone = true) ∧
    (let s := opened .lead2 .high (some 150) (within .stopping);
      let w := s.wmu.windows[0];
      inRun s = true ∧ s.stu.synced = true ∧ w.isOpen = true ∧ w.capture = some 150 ∧ w.active.role = .lead2 ∧
        s.wmu.head.driveDone = false) := by decide

/-- Window 0 open without a capture, its miss due at hi. -/
def missing (r : WindowRole) (s : State) : State := opened r .rise none s

theorem witness_WindowsOpenCaptureAndClose_misses :
    (let s := missing .watch (within (.running .cycling));
      inRun s = true ∧ s.stu.synced = true ∧ s.wmu.windows[(0 : Fin 12)].isOpen = true ∧
        s.wmu.windows[(0 : Fin 12)].capture = none ∧ s.wmu.windows[(0 : Fin 12)].active.role = .watch ∧
        bursts s.wmu.windows[(0 : Fin 12)] = true) ∧
    (let s := headHolds .empty (fun h => { h with driveDone := true, record := some (item 0) }) (missing .driver (within .stopping));
      s.wmu.windows[(0 : Fin 12)].active.role = .driver ∧ s.wmu.head.driveDone = true) ∧
    (let s := headHolds (.item (item 0)) (fun h => { h with driveDone := true }) (missing .lead2 (within .stopping));
      s.wmu.windows[(0 : Fin 12)].active.role = .lead2 ∧ s.wmu.head.content = .item (item 0) ∧ s.wmu.head.driveDone = true) ∧
    (let s := headGood (missing .part (within (.running .cycling)));
      s.wmu.windows[(0 : Fin 12)].active.role = .part ∧ s.wmu.head.record.isSome = true ∧ s.wmu.head.partMissed = false ∧
        s.wmu.head.content = .item (item 0) ∧ s.wmu.head.driveDone = false ∧
        (itemRec (item 0) s).tries + 1 ≠ s.pgs.active.maxTries) ∧
    (let s := onPgs (fun p => { p with items := [(0, ⟨.head, 2, none⟩)] }) (headGood (missing .part (within (.running .cycling))));
      s.wmu.head.content = .item (item 0) ∧ (itemRec (item 0) s).tries + 1 = s.pgs.active.maxTries) ∧
    (let s := headHolds .empty (fun h => { h with record := some (item 0) }) (missing .part (within (.running .cycling)));
      s.wmu.head.record.isSome = true ∧ s.wmu.head.partMissed = false ∧ s.wmu.head.content = .empty) ∧
    (let s := onWindow 0 (fun w => { w with mark := true }) (missing .chain (within (.running .cycling)));
      s.wmu.windows[(0 : Fin 12)].active.role = .chain ∧ s.wmu.windows[(0 : Fin 12)].mark = true) ∧
    (let s := onWindow 0 (fun w => { w with mark := true }) (missing .tape (running (.running .cycling) .tapeOut));
      s.wmu.windows[(0 : Fin 12)].active.role = .tape ∧ s.wmu.windows[(0 : Fin 12)].mark = true ∧ runMode s = some .tapeOut) ∧
    ((onTmu (fun t => { t with lastTaped := some (item 0, 0) }) State.reset).tmu.lastTaped = some (item 0, 0) ∧
      State.reset.tmu.lastTaped = none ∧ Table.wf ItemRecord.fresh State.reset.pgs.items = true) := by decide

/-- A DIRECT panel of two items in a run, the head load at OPEN. -/
def atOpening (c : HeadContent) (f : HeadLoad → HeadLoad) : State :=
  panelOpen .direct (program 2 (headHolds c f (within (.running .cycling))))

theorem witness_HeadLoadsAreDeliveredAndJudged_open :
    (let s := atOpening .empty id;
      inRun s = true ∧ (∀ n : Fin 12, s.wmu.windows[n].isOpen = false) ∧ s.wmu.head.content = .empty ∧ anyUnfinished s = true) ∧
    (let s := atOpening .surplus id;
      s.wmu.head.content = .surplus ∧ s.wmu.head.ejectDone = false ∧ anyUnfinished s = true) ∧
    (let s := atOpening .unknown (fun h => { h with ejectDone := true });
      s.wmu.head.content = .unknown ∧ s.wmu.head.ejectDone = true ∧ anyUnfinished s = true) ∧
    (let s := atOpening (.item (item 0)) id;
      s.wmu.head.content = .item (item 0) ∧ s.wmu.head.driveDone = false ∧ item 0 ∈ workList s ∧
        Table.wf ItemRecord.fresh s.pgs.items = true) ∧
    (let s := atOpening (.item (item 0)) (fun h => { h with driveDone := true });
      s.wmu.head.content = .item (item 0) ∧ s.wmu.head.driveDone = true ∧
        (∃ j ∈ workList s, j ≠ item 0 ∧ unfinishedIn s.pgs.panel (itemRec j s).state = true) ∧
        drivenOutcome s ≠ .suspect ∧ Table.wf ItemRecord.fresh s.pgs.items = true) ∧
    (let s := atOpening (.item (item 0)) (fun h => { h with driveDone := true, partMissed := true });
      drivenOutcome s = .suspect ∧
        (∃ j ∈ workList s, j ≠ item 0 ∧ unfinishedIn s.pgs.panel (itemRec j s).state = true)) := by decide

/-- Windows 0 and 1 check the two leads, in class W. -/
def leadWindows (s : State) : State :=
  onWindow 0 (fun w => { w with active := { w.active with role := .lead1, cls := some .w } })
    (onWindow 1 (fun w => { w with active := { w.active with role := .lead2, cls := some .d } }) s)

theorem witness_HeadLoadsAreDeliveredAndJudged_suspect :
    let s := leadWindows (atOpening (.item (item 0)) (fun h => { h with driveDone := true }));
    s.wmu.head.lead1 = .none ∧ s.wmu.head.lead2 = .none ∧ drivenOutcome s = .suspect ∧
      (∀ k : Fin 12, s.wmu.windows[k].active.role = .lead1 → s.wmu.windows[(0 : Fin 12)].active.role = .lead1 ∧ 0 ≤ k) ∧
      (∀ k : Fin 12, s.wmu.windows[k].active.role = .lead2 → s.wmu.windows[(1 : Fin 12)].active.role = .lead2 ∧ 1 ≤ k) ∧
      s.wmu.windows[(0 : Fin 12)].active.cls ≠ some .s ∧ s.wmu.windows[(0 : Fin 12)].active.cls ≠ some .h ∧
      s.wmu.windows[(1 : Fin 12)].active.cls ≠ some .s ∧ s.wmu.windows[(1 : Fin 12)].active.cls ≠ some .h := by decide

/-- LEAD1 of class S, LEAD2 of class D with a pending class W, both without a result at OPEN; one more item is PENDING. -/
def leadHalts : State :=
  onWindow 0 (fun w => { w with active := { w.active with cls := some .s } })
    (onWindow 1 (fun w => { w with staged := some { w.active with cls := some .w } })
      (leadWindows (atOpening (.item (item 0)) (fun h => { h with driveDone := true, record := some (item 0) }))))

theorem witness_HeadLoadsAreDeliveredAndJudged_halting :
    leadHalts.wmu.windows[(0 : Fin 12)].active.role = .lead1 ∧ leadHalts.wmu.head.lead1 = .none ∧
      leadHalts.wmu.windows[(0 : Fin 12)].active.cls = some .s ∧ leadHalts.wmu.windows[(1 : Fin 12)].staged.isSome = true ∧
      drivenOutcome leadHalts = .suspect := by decide

/-- R62: each LEAD_MISS of OPEN is in its own window's class, also where the first halts the machine and pending settings are adopted. -/
theorem test_each_lead_miss_keeps_its_class :
    ((atOpenOutcome leadHalts).lnk.queue.filterMap fun r => match r with | .fault f _ => some (f.kind, f.cls) | _ => none) =
      [(.leadMiss, .s), (.leadMiss, .d)] ∧ (atOpenOutcome leadHalts).msv.state = .halted := by decide

theorem witness_InputEdgesReachTheirOwners_run :
    (let s := onPgs (fun p => { p with boardAway := true }) (within (.running .dwell));
      s.lnk.trailing = [] ∧ s.wmu.inputs[(6 : InputNo)].accepted = false ∧ s.pgs.boardAway = true ∧ isRunning s = true) ∧
    (let s := onMsv (fun m => { m with dwell := { m.dwell with tape := true } }) (high 7 (running (.running .dwell) .tapeIn));
      s.lnk.trailing = [] ∧ (inDwell s && dwellEmpty s && s.msv.atRest) = false ∧
        s.wmu.inputs[(7 : InputNo)].accepted = true ∧ s.msv.dwell.tape = true ∧
        { s.msv.dwell with tape := false } = DwellSet.none ∧ s.msv.state = .running .dwell ∧ s.msv.atRest = true ∧
        (∀ n : Fin 12, s.wmu.windows[n].isOpen = false) ∧ ∀ i : ChannelNo, s.stu.channels[i].trigger ≠ .opened) ∧
    (let s := onMsv (fun m => { m with dwell := { m.dwell with tape := true } }) (high 7 (running (.running .cycling) .tapeIn));
      s.wmu.inputs[(7 : InputNo)].accepted = true ∧ s.msv.dwell.tape = true ∧ s.msv.state ≠ .running .dwell) := by decide

/-- A board cycled in, for a program of one step, in a run. -/
def boardIn (s : State) : State := onPgs (fun p => { p with boardChanged := true }) (program 1 (high 6 s))

theorem witness_PanelsStartWithABoard_start :
    (State.reset.lnk.trailing = [] ∧ mayStartPanel State.reset = false ∧
      (inDwell State.reset && dwellEmpty State.reset && State.reset.msv.atRest) = false) ∧
    (let s := boardIn (within (.running .dwell));
      isRunning s = true ∧ runMode s = some .direct ∧ s.pgs.panel = none ∧ s.pgs.boardChanged = true ∧
        boardPresent s = true ∧ (∀ c ∈ s.sqc.chain, c.holds = none) ∧ s.sqc.redo = [] ∧ headItem s = none ∧
        (item 0).step.val < s.store.stepCount ∧ ((s.pgs.staged.getD s.pgs.active).image (item 0).image).enabled = true ∧
        (stepOf (item 0) s).skip = false ∧
        (∀ n : Fin 48, s.sqc.dispensers[n].state ≠ .enabled) ∧
        { s.msv.dwell with board := false, starved := true } ≠ DwellSet.none) ∧
    (let s := boardIn (enabled0 (onStore (fun t => { t with hx := 0, hy := 0 }) (within (.running .dwell))));
      dispenserEnabled (item 0) s = true ∧ reach (item 0) s = 0 ∧ (item 0).key = 0 ∧ isRunning s = true ∧
        { s.msv.dwell with board := false } = DwellSet.none ∧ s.msv.atRest = true ∧ s.msv.state = .running .dwell) ∧
    (let s := boardIn (running (.running .cycling) .tapeIn);
      isRunning s = true ∧ runMode s = some .tapeIn ∧ s.pgs.panel = none ∧ mayStartPanel s = true ∧
        s.msv.state ≠ .running .dwell) := by decide

/-- A panel with its one item finished. -/
def finished0 (m : RunMode) (s : State) : State :=
  onPgs (fun p => { p with items := [(0, ⟨if m = .tapeOut then .taped else .inserted, 0, none⟩)] }) (panelOpen m (program 1 s))

/-- The panels a run has still to make. -/
def leaving (n : Nat) (s : State) : State := onMsv (fun m => { m with run := m.run.map fun r => { r with remaining := n } }) s

theorem witness_PanelsStartWithABoard_end :
    (State.reset.pgs.panel = none ∧ anyUnfinished (panelOpen .direct (program 1 State.reset)) = true) ∧
    (let s := finished0 .direct State.reset;
      s.pgs.panel = some .direct ∧ anyUnfinished s = false ∧ isRunning s = false ∧ s.msv.run = none) ∧
    (let s := finished0 .tapeIn (leaving 2 (running (.running .cycling) .tapeIn));
      s.pgs.panel = some .tapeIn ∧ anyUnfinished s = false ∧ isRunning s = true ∧
        s.msv.run = some { mode := .tapeIn, remaining := 2, cont := false }) ∧
    (let s := finished0 .tapeOut (leaving 0 (running (.running .cycling) .tapeOut));
      s.pgs.panel = some .tapeOut ∧ anyUnfinished s = false ∧ isRunning s = true ∧
        s.msv.run = some { mode := .tapeOut, remaining := 0, cont := false }) ∧
    (let s := finished0 .direct (within (.running .cycling));
      s.pgs.panel = some .direct ∧ anyUnfinished s = false ∧ s.msv.state = .running .cycling ∧
        s.msv.run = some { mode := .direct, remaining := 1, cont := false }) ∧
    ((taped [] 4094 0 none State.reset).tmu.mapLength + 2 ≤ 4096 ∧ (taped [] 4095 0 none State.reset).tmu.mapLength = 4095 ∧
      4096 ≤ (taped [] 4096 0 none State.reset).tmu.mapLength) := by decide

theorem witness_StopActsByTheState_before_the_first_count :
    let s := homing (homed (single .sync 0 false (tripOn State.reset)));
    linkReady s ∧ s.lnk.trailing = [] ∧ s.msv.state = .homing ∧ s.msv.home = some false ∧ s.msv.atRest = true ∧
      s.msv.single = some ⟨.sync, 0, false⟩ ∧ motionInFlight s = false ∧ s.mot.x.state ≠ .homing ∧ s.mot.y.state ≠ .homing ∧
      s.mot.span.state ≠ .homing ∧ s.mot.rot.state ≠ .homing := by decide

/-! ### Generators and settle timers -/

/-- A plan that moves X and Y. -/
def planXY : Plan := { planX with legs := planX.legs ++ [⟨.y, 2, 2, true, .reset, [2]⟩] }

/-- Service mode with a jog of X in flight, homed at a position. -/
def jogging (d : Drive) (c : Int) : State :=
  onAxis .x (fun r => { r with state := .moving, drive := d, commanded := c })
    (operating (.jog .x false .none) (homed (within .service)))

theorem witness_GeneratorTicksIssueTheirPulses_planned :
    (State.reset.lnk.trailing = [] ∧ (inDwell State.reset && dwellEmpty State.reset && State.reset.msv.atRest) = false ∧
      State.reset.mot.x.drive = .idle) ∧
    (let s := onMsv (fun m => { m with dwell := { m.dwell with table := true } })
        (onMot (fun m => { m with running := some planX }) (movingX true [2, 2] 0 (homed (within (.running .dwell)))));
      s.lnk.trailing = [] ∧ (inDwell s && dwellEmpty s && s.msv.atRest) = false ∧ s.mot.x.drive = .profile true [2, 2] ∧ s.mot.x.tick.withheld = false ∧ softLimit .x = some 45000 ∧
        (0 : Int) ≤ 0 + 2 ∧ (0 : Int) + 2 ≤ 45000) ∧
    (let s := onMot (fun m => { m with running := some planX }) (movingX true [2] 44998 (homed (within (.running .cycling))));
      s.mot.x.drive = .profile true [2] ∧ s.mot.x.tick.given = 0 ∧ s.mot.x.commanded + 2 ≤ 45000 ∧
        s.mot.running = some planX ∧ serviceAxis s = none ∧ (∀ l ∈ planX.legs, l.axis = .x) ∧ 0 < s.store.settleTime ∧
        s.msv.home ≠ some false) ∧
    (let s := onAxis .y (fun r => { r with state := .moving, drive := .profile true [2] })
        (onMot (fun m => { m with running := some planXY }) (movingX true [2] 0 (homed (within (.running .cycling)))));
      s.mot.x.drive = .profile true [2] ∧ s.mot.running = some planXY ∧
        (∃ l ∈ planXY.legs, l.axis ≠ .x ∧ (s.mot.axis l.axis).drive ≠ .idle)) ∧
    (let s := onAxis .span (fun r => { r with state := .moving, drive := .profile true [2, 2] })
        (onAxis .rot (fun r => { r with state := .moving, drive := .profile true [2] })
          (onMot (fun m => { m with running := some planRot, cAxis := some .rot }) (homed (within (.running .cycling)))));
      s.mot.cAxis = some .rot ∧ s.mot.rot.drive = .profile true [2] ∧ s.mot.running = some planRot ∧
        s.mot.span.state = .moving ∧ s.mot.span.drive = .profile true [2, 2] ∧ ∃ l ∈ planRot.legs, l.axis = .span) := by
  decide

theorem witness_GeneratorTicksIssueTheirPulses_service :
    (let s := jogging (.jog true 2 false) 44998;
      serviceAxis s = some .x ∧ 0 < s.store.settleTime ∧ s.mot.x.drive = .jog true 2 false ∧ s.mot.x.homed = true ∧
        s.mot.x.tick.withheld = false ∧ (0 : Int) ≤ s.mot.x.commanded + 2 ∧ s.mot.x.commanded + 2 ≤ 45000) ∧
    (let s := jogging (.jog false 2 true) 2;
      serviceAxis s = some .x ∧ s.mot.x.drive = .jog false 2 true ∧ 0 ≤ s.mot.x.commanded - 2) ∧
    (let s := jogging (.profile true [2]) 0;
      serviceAxis s = some .x ∧ s.mot.x.drive = .profile true [2] ∧ s.mot.x.commanded + 2 ≤ 45000) ∧
    (let s := jogging (.jog true 2 false) 44999;
      serviceAxis s = some .x ∧ s.mot.x.drive = .jog true 2 false ∧ s.mot.x.homed = true ∧ softLimit .x = some 45000 ∧
        0 ≤ s.mot.x.commanded ∧ s.mot.x.commanded ≤ 45000 ∧ ¬ s.mot.x.commanded + 2 ≤ 45000) ∧
    (let s := jogging (.profile false [2, 2]) 1;
      s.mot.x.drive = .profile false [2, 2] ∧ s.mot.x.commanded ≤ 45000 ∧ ¬ 0 ≤ s.mot.x.commanded - 2) ∧
    (let s := after .replySend (after (.loopTest 0 0 1) (within .service));
      s.mot.service = some (.loop .x true 2 0 0 0 0 .none) ∧ internalLoop .x s = true ∧ serviceAxis s = some .x) ∧
    (let s := onAxis .x (fun r => { r with tick := { wait := 20 } }) (jogging (.jog true 2 false) 0);
      s.mot.x.drive = .jog true 2 false ∧ 0 < s.mot.x.tick.wait) ∧
    (let s := onAxis .x (fun r => { r with tick := { time := 500, given := 1 } }) (jogging (.jog true 2 false) 0);
      s.mot.x.tick.wait = 0 ∧ s.mot.x.tick.time + 1 < 1000 ∧ s.mot.x.tick.given < 2 ∧
        s.mot.x.tick.time = 1000 / 2 * s.mot.x.tick.given) ∧
    (let s := onAxis .x (fun r => { r with tick := { time := 998, given := 2 } }) (jogging (.jog true 2 false) 0);
      s.mot.x.tick.wait = 0 ∧ s.mot.x.tick.time + 1 < 1000 ∧ 2 ≤ s.mot.x.tick.given) := by decide

theorem witness_GeneratorTicksIssueTheirPulses_searching :
    (let s := onMot (fun m => { m with cAxis := some .rot }) (searching .rot false 0 (homing State.reset));
      s.lnk.trailing = [] ∧ s.mot.cAxis = some .rot ∧ s.mot.rot.state = .homing ∧
        s.mot.rot.drive = .search false 2 0 false false ∧ 0 + (2 - s.mot.rot.tick.given) < s.mot.rot.searchLimit) ∧
    (let s := onMsv (fun m => { m with home := some true })
        (onAxis .x (fun r => { r with drive := .search true 2 5 true true }) (searching .x true 5 (searching .y false 0 (homing State.reset))));
      s.mot.x.state = .homing ∧ s.mot.x.drive = .search true 2 5 true true ∧ 5 + (2 - s.mot.x.tick.given) < s.mot.x.searchLimit ∧
        s.msv.home = some true ∧ s.mot.y.state = .homing) := by decide

/-- A service motion settling. -/
def serviceSettling (o : ServiceOp) (s : State) : State :=
  onAxis .x (fun r => { r with state := .settling }) (onMot (fun m => { m with service := some o, serviceSettle := some ⟨5, 4, 0⟩ }) (homed s))

theorem witness_SettleEndsChecksTheFollowing_service :
    (let s := serviceSettling (.jog .x true .none) (within .service);
      s.lnk.trailing = [] ∧ s.mot.serviceSettle.isSome = true ∧ s.mot.service = some (.jog .x true .none) ∧
        ¬ s.mot.x.following < (s.mot.x.feedback - s.mot.x.commanded).natAbs ∧
        ¬ s.mot.y.following < (s.mot.y.feedback - s.mot.y.commanded).natAbs ∧ s.mot.held = none ∧ s.mot.running = none ∧
        s.msv.home = none ∧ s.msv.dwell.table = false ∧ inDwell s = false) ∧
    (let s := onAxis .x (fun r => { r with feedback := -9 }) (serviceSettling (.jog .x true .stop) (within .service));
      s.mot.service = some (.jog .x true .stop) ∧ s.mot.x.homed = true ∧
        s.mot.x.following < (s.mot.x.feedback - s.mot.x.commanded).natAbs ∧ s.fau.capture.locked = false) ∧
    (let s := serviceSettling (.loop .x true 1 14 0 0 0 .none) (within .service);
      s.mot.serviceSettle.isSome = true ∧ s.mot.service = some (.loop .x true 1 14 0 0 0 .none) ∧ 14 + 1 < 16 ∧
        s.mot.x.state = .settling ∧ inDwell s = false) ∧
    (let s := serviceSettling (.loop .x false 1 15 2 0 0 .none) (within .service);
      s.mot.service = some (.loop .x false 1 15 2 0 0 .none) ∧ 16 ≤ 15 + 1 ∧ s.mot.held = none ∧ s.mot.running = none ∧
        s.msv.home = none ∧ s.msv.dwell.table = false) ∧
    (serviceSettling (.loop .x true 1 3 0 0 0 .stop) (within .service)).mot.service = some (.loop .x true 1 3 0 0 0 .stop) := by
  decide

theorem witness_ClassActionsHaltTheMachine_item :
    (let s := headGood (within (.running .cycling));
      s.wmu.head.content = .item (item 0) ∧ s.wmu.head.driveDone = false ∧ inRun s = true ∧ s.pgs.panel = none ∧
        Table.wf ItemRecord.fresh s.pgs.items = true) ∧
    (let s := panelOpen .direct (headGood (within (.running .cycling)));
      s.pgs.panel = some .direct ∧ s.sqc.redo.length < 16) ∧
    ((headGood State.reset).wmu.head.content ≠ .item (item 1)) := by decide

theorem witness_PlansStartAndGeneratorCIsHandedOn_rates :
    let s := onAxis .x (fun r => { r with stagedFlag := true }) State.reset;
    s.mot.x.drive = .idle ∧ s.mot.x.state = .unhomed ∧ s.mot.running = none ∧ s.mot.held = none ∧ serviceAxis s = none ∧
      s.mot.x.stagedFlag = true := by decide

/-- ROT in its last tick on generator C in HOMING, with SPAN waiting for its search. -/
def rotEnds : State :=
  onAxis .span (fun r => { r with state := .homing }) (onAxis .rot (fun r => { r with state := .moving, drive := .profile true [2] })
    (onMot (fun m => { m with cAxis := some .rot }) (homing (homed State.reset))))

/-- The legs of ROT, and of X and ROT. -/
def planRotOnly : Plan := { planX with legs := [⟨.rot, 2, 2, true, .reset, [2]⟩] }
def planXRot : Plan := { planX with legs := planX.legs ++ planRotOnly.legs }

theorem witness_GeneratorTicksIssueTheirPulses_handing :
    (let s := onMot (fun m => { m with running := some planRotOnly }) rotEnds;
      s.lnk.trailing = [] ∧ (inDwell s && dwellEmpty s && s.msv.atRest) = false ∧ s.mot.cAxis = some .rot ∧
        s.mot.rot.drive = .profile true [2] ∧ s.mot.rot.tick.withheld = false ∧ s.mot.rot.state = .moving ∧
        0 < s.store.settleTime ∧ s.msv.home = some false ∧ s.mot.span.state = .homing ∧ s.mot.span.drive = .idle) ∧
    (let s := onMot (fun m => { m with running := some planRotOnly }) rotEnds;
      serviceAxis s = none ∧ s.mot.cGap = none ∧ s.mot.x.state ≠ .homing ∧ s.mot.y.state ≠ .homing ∧
        s.mot.running = some planRotOnly ∧ (∀ l ∈ planRotOnly.legs, l.axis = .rot)) ∧
    (let s := onMot (fun m => { m with running := some planXRot }) (movingX true [2] 0 rotEnds);
      s.mot.running = some planXRot ∧ (∀ l ∈ planXRot.legs, l.axis ≠ .span) ∧
        ∃ l ∈ planXRot.legs, l.axis ≠ .rot ∧ (s.mot.axis l.axis).drive ≠ .idle) ∧
    (serviceAxis (operating (.jog .rot true (.fault .burst)) rotEnds) = some .rot) := by decide

/-- The last tick of a move in HOMING with no axis waiting. -/
theorem witness_GeneratorTicksIssueTheirPulses_none_waits :
    let s := onMot (fun m => { m with running := some planX }) (movingX true [2] 0 (homing (homed State.reset)));
    s.msv.home = some false ∧ s.mot.x.state ≠ .homing ∧ ∀ b, (s.mot.axis b).state = .homing → (s.mot.axis b).drive ≠ .idle := by
  intro s
  exact ⟨rfl, by decide, fun b h => by cases b <;> exact absurd h (by decide)⟩

/-- R137: SPAN searches as soon as ROT's last tick frees generator C, while ROT still settles. -/
theorem test_span_searches_at_rots_last_tick :
    let t := after (.generatorTick .c) (onMot (fun m => { m with running := some planRotOnly }) rotEnds);
    t.mot.span.drive = .search false 2 0 false false ∧ t.mot.cAxis = some .span ∧ t.mot.rot.state = .settling ∧
      t.mot.settle.isSome = true := by decide

theorem witness_PlansStartAndGeneratorCIsHandedOn_homing :
    (let s := onAxis .rot (fun r => { r with state := .homing }) (onMot (fun m => { m with cGap := some 0 }) (homing (homed State.reset)));
      s.lnk.trailing = [] ∧ s.mot.cGap.isSome = true ∧ s.mot.cAxis = none ∧ s.mot.span.state ≠ .moving ∧
        s.msv.home = some false ∧ s.mot.x.state ≠ .homing ∧ s.mot.y.state ≠ .homing ∧ serviceAxis s = none) ∧
    (let s := onAxis .rot (fun r => { r with state := .homing }) (onMot (fun m => { m with cGap := some 0 }) (homing (homed State.reset)));
      s.mot.rot.state = .homing ∧ s.mot.rot.drive = .idle ∧ s.mot.span.state ≠ .homing ∧ s.mot.span.homePending = false) ∧
    (let s := onAxis .span (fun r => { r with state := .homing }) (onMot (fun m => { m with cGap := some 0 }) (homing (homed State.reset)));
      s.mot.span.state = .homing ∧ s.mot.span.drive = .idle ∧ serviceAxis s = none ∧ s.mot.span.state ≠ .moving) ∧
    (let s := onMot (fun m => { m with cGap := some 0 }) (homing (homed State.reset));
      s.mot.span.state ≠ .homing ∧ s.mot.rot.state ≠ .homing ∧ s.mot.span.homePending = false) := by decide

/-- A plan on X settling, with one HELD behind it. -/
def heldBehind (p : Plan) (m : MachineState) : State := onMot (fun t => { t with held := some p }) (settling (within m))

theorem witness_SettleEndsChecksTheFollowing_held :
    (let s := heldBehind planRot (.running .cycling);
      s.lnk.trailing = [] ∧ s.mot.running = some planX ∧ s.mot.settle = some ⟨5, 4, 0⟩ ∧ s.mot.held = some planRot ∧
        s.msv.home = none ∧ s.mot.service = none ∧ (planRot.legs.map (·.axis)).Nodup ∧ inDwell s = false) ∧
    (let s := heldBehind planRot (.running .cycling);
      planRot.openMet = true ∧ s.mot.span.state = .idle ∧ s.mot.rot.state = .idle ∧ s.mot.cAxis = none ∧ s.mot.cGap = none ∧
        (planRot.legs.map (·.axis)) = [.span, .rot] ∧ (planX.legs.map (·.axis)) = [.x]) ∧
    (let s := heldBehind { planRot with openMet := false } (.running .cycling);
      s.mot.held = some { planRot with openMet := false } ∧ ({ planRot with openMet := false } : Plan).openMet = false) ∧
    (let s := onMot (fun m => { m with cGap := some 0 }) (heldBehind planRot (.running .cycling));
      s.mot.held = some planRot ∧ s.mot.cGap ≠ none) := by decide

theorem witness_SettleEndsChecksTheFollowing_home_pending :
    (let s := onAxis .x (fun r => { r with homePending := true }) (settling (homing State.reset));
      s.lnk.trailing = [] ∧ s.mot.running = some planX ∧ s.mot.settle = some ⟨5, 4, 0⟩ ∧ s.mot.held = none ∧
        s.msv.home = some false ∧ s.msv.state = .homing ∧ s.mot.service = none ∧ s.mot.x.state = .settling) ∧
    (let s := onAxis .x (fun r => { r with homePending := true }) (settling (homing State.reset));
      s.mot.x.homePending = true ∧ s.mot.x.drive = .idle ∧ (planX.legs.map (·.axis)).Nodup ∧
        ¬ s.mot.x.following < (s.mot.x.feedback - s.mot.x.commanded).natAbs ∧
        ¬ s.mot.y.following < (s.mot.y.feedback - s.mot.y.commanded).natAbs) ∧
    (let s := onAxis .rot (fun r => { r with state := .settling, homePending := true })
        (onMot (fun m => { m with running := some planRotOnly, settle := some ⟨5, 4, 0⟩ }) (homing (homed State.reset)));
      s.mot.rot.drive = .idle ∧ s.mot.cAxis = none ∧ s.mot.cGap = none ∧ s.mot.span.state ≠ .homing ∧
        s.mot.span.homePending = false ∧ (planRotOnly.legs.map (·.axis)) = [.rot]) := by decide

/-- R152 and R137: the HELD plan starts at the settle end; a home pending becomes a search there. -/
theorem test_settle_end_starts_what_waits :
    (after (.settleEnd .planned) (heldBehind planRot (.running .cycling))).mot.running = some planRot ∧
    (after (.settleEnd .planned) (heldBehind planRot (.running .cycling))).mot.cAxis = some .rot ∧
    (after (.settleEnd .planned) (onAxis .x (fun r => { r with homePending := true }) (settling (homing State.reset)))).mot.x.drive =
      .search false 2 0 false false := by decide

theorem witness_CrossingsFireTheLandmarks_start :
    (let s := jogging (.profile true [2, 2]) 44999;
      s.mot.running = none ∧ internalLoop .x s = false ∧ s.mot.x.drive = .profile true [2, 2] ∧ s.mot.x.homed = true ∧
        softLimit .x = some 45000 ∧ 0 ≤ s.mot.x.commanded ∧ s.mot.x.commanded ≤ 45000) ∧
    (let s := jogging (.jog false 2 true) 1;
      s.mot.x.drive = .jog false 2 true ∧ s.mot.x.homed = true ∧ s.mot.x.commanded - 2 < 0) ∧
    (let s := onAxis .y (fun r => { r with drive := .profile false [3] }) State.reset;
      s.mot.y.drive = .profile false [3] ∧ s.mot.y.homed = false ∧ internalLoop .y s = false ∧ s.mot.running = none) ∧
    (let s := onAxis .rot (fun r => { r with drive := .profile true [3], commanded := 6399 }) State.reset;
      s.mot.rot.drive = .profile true [3] ∧ internalLoop .rot s = false ∧ s.mot.running = none) ∧
    (let s := operating (.loop .x true 1 3 0 7 7 (.fault .burst)) State.reset;
      s.mot.running = none ∧ internalLoop .x s = true ∧ s.mot.service = some (.loop .x true 1 3 0 7 7 (.fault .burst))) := by
  decide

/-- R145 with R128 and R194: a service motion ends at the soft limit it meets, and an INTERNAL loop test where it began. -/
theorem test_start_position_is_where_the_motion_ends :
    startPosition .x (jogging (.profile true [2, 2]) 44999) = 45000 ∧ startPosition .x (jogging (.jog false 2 true) 5) = 3 ∧
    startPosition .x (onMot (fun m => { m with service := some (.loop .x true 1 3 0 7 7 (.fault .burst)) })
      (jogging (.profile true [2, 2]) 100)) = 7 := by decide

theorem witness_StopActsByTheState_homing_revolution :
    (let s := turning (homing (homed (single .sync 5 false (tripOn State.reset))));
      linkReady s ∧ s.msv.state = .homing ∧ s.msv.home = some false ∧ s.msv.single = some ⟨.sync, 5, false⟩ ∧
        s.msv.trip = true ∧ s.msv.atRest = false) ∧
    (let s := turning (homing (homed (single .sync 1025 true State.reset)));
      linkReady s ∧ s.msv.state = .homing ∧ s.msv.home = some false ∧ s.msv.single = some ⟨.sync, 1025, true⟩) := by decide

/-- HOME ends with the brake applied, and no revolution is left (R4, R20). -/
theorem test_stop_before_the_first_count_applies_the_brake :
    (after .stop (homing (homed (single .sync 0 false (tripOn State.reset))))).msv.brake = true ∧
    (after .stop (homing (homed (single .sync 0 false (tripOn State.reset))))).msv.trip = false := by decide

/-- The two pulses of a tick begin at 0 and 500 µs (R128). -/
theorem test_jog_has_its_pulses_at_0_and_500 :
    (axisMicro .x (jogging (.jog true 2 false) 0)).mot.x.pulse = ⟨5, true⟩ ∧
    (axisMicro .x (onAxis .x (fun r => { r with tick := { time := 499, given := 1 } }) (jogging (.jog true 2 false) 1))).mot.x.commanded = 1 ∧
    (axisMicro .x (onAxis .x (fun r => { r with tick := { time := 500, given := 1 } }) (jogging (.jog true 2 false) 1))).mot.x.commanded = 2 := by
  decide

/-! ### Faults and what every step keeps -/

/-- A fault record of a class and an item. -/
def faultOf (c : FaultClass) (i : Option Item) : FaultRecord :=
  { kind := .burst, cls := c, item := i, chainPos := none, angle := 0, synced := false, cycle := 0, detail := 0 }

theorem witness_TheCaptureRecordKeepsTheWorst :
    ((faultOf .w none).cls = .w ∧ (faultOf .d none).cls ≠ .w ∧ State.reset.fau.capture.locked = false) ∧
    (let s := onFau (fun f => { f with capture := ⟨some (faultOf .s (some ⟨1, 1⟩)), true, 255⟩ }) State.reset;
      s.fau.capture.locked = true ∧ s.fau.capture.content = some (faultOf .s (some ⟨1, 1⟩)) ∧ (faultOf .h none).cls ≠ .w ∧
        (faultOf .s (some ⟨5, 0⟩)).item = some ⟨5, 0⟩ ∧ (0 : Fin 4) < 1) := by decide

theorem witness_ClassActionsHaltTheMachine :
    (inRun (within .stopping) = true ∧ (tripOn State.reset).msv.trip = true ∧ State.reset.fau.capture.locked = false) ∧
    (headHolds (.item (item 0)) id State.reset).wmu.head.driveDone = false ∧
    (headHolds (.item (item 0)) (fun h => { h with driveDone := true }) State.reset).wmu.head.driveDone = true ∧
    (State.reset.mot.limit.accepted = false ∧ State.reset.fau.stopLine.accepted = false) ∧
    ((limitHigh State.reset).mot.limit.accepted = true ∧ (limitHigh State.reset).lnk.trailing = []) ∧
    ((stopLineHigh State.reset).fau.stopLine.accepted = true ∧ (stopLineHigh State.reset).lnk.trailing = []) := by decide

/-- The state after reset with one request waiting is sound, and a step answers a next state from it. -/
theorem witness_EveryStepKeepsSoundStates : Sound (State.reset.withPending [.stop]) where
  trailing := by decide
  blocks :=
    { msv := ⟨by decide, by decide, by decide, by decide⟩
      stu := ⟨by decide, by decide, by decide, by decide, by intro n h; cases h⟩
      wmu := ⟨by decide, by decide, by decide⟩
      pgs := ⟨⟨by decide, by decide, by decide⟩, (by intro q h; cases h), by decide⟩
      sqc := ⟨by decide, by decide, by decide, by decide, by decide, by decide⟩
      tmu := ⟨by decide, by decide, by decide, by decide⟩
      mot := ⟨by intro a; cases a <;> exact ⟨⟨by decide, by decide, by decide⟩, ⟨by decide, by decide, by decide⟩, by decide, by decide, by decide, by decide, by decide⟩,
              by intro a n k w b c f e h; cases h⟩
      fau := ⟨by decide, by decide, by decide, by decide⟩
      lnk := ⟨by decide, by decide, (by intro b h; cases h), (by intro b h; cases h)⟩
      store := ⟨by decide, by decide, by decide, by decide, by decide, by decide, by decide, by decide, by decide, by decide, by decide⟩ }

theorem witness_EveryStepKeepsSoundStates_step :
    step (State.reset.withPending [.stop]) = .next (after .stop State.reset) := rfl

theorem witness_OnlySettingsRequestsWriteTheStore :
    writesStore .home = false ∧ exec .home State.reset = .next (after .home State.reset) ∧ State.reset.pending = [] ∧
    step State.reset = .next (tick State.reset) ∧ State.reset.lnk.heldBytes = [] :=
  ⟨by decide, rfl, rfl, rfl, rfl⟩

/-- STOPPED with a board present and a panel of tape-in data; a program of step 0. -/
def runnable (s : State) : State := onTmu (fun t => { t with mapLength := 1 }) (program 1 (high 6 s))

theorem witness_RunIsRefusedOrTaken_blocks :
    (let s := runnable (panelOpen .direct (within .stopped));
      linkReady s ∧ s.msv.state = .stopped ∧ s.msv.atRest = true ∧ s.pgs.panel = some .direct ∧
        (1 : Byte).getLsbD 0 = true ∧ boardPresent s = true ∧ s.tmu.jammed = false ∧ s.tmu.position < s.tmu.mapLength ∧
        headItem s = none) ∧
    (let s := boardIn (runnable (within .stopped));
      linkReady s ∧ s.msv.state = .stopped ∧ s.msv.atRest = true ∧ s.pgs.panel = none ∧ 0 < s.store.stepCount ∧
        (stepAt 0 s).skip = false ∧ (s.pgs.boardChanged && boardPresent s) = true ∧ headItem s = none ∧
        (item 0).step.val < s.store.stepCount ∧ (stepOf (item 0) s).skip = false ∧
        ((s.pgs.staged.getD s.pgs.active).image (item 0).image).enabled = true) ∧
    (let s := boardIn (runnable (within (.running .dwell)));
      s.pgs.panel = none ∧ isRunning s = true ∧ runMode s = some .direct ∧ (s.pgs.boardChanged && boardPresent s) = true) ∧
    (let s := program 1 (within (.running .dwell));
      s.pgs.panel = none ∧ isRunning s = true ∧ runMode s = some .direct ∧
        (s.pgs.boardChanged && boardPresent s) = false) := by decide

theorem witness_RunIsRefusedOrTaken_starved :
    let s := panelOpen .direct (program 1 (within (.running .dwell)))
    (isRunning s = true ∧ s.pgs.panel.isSome = true ∧ runMode s = some .direct ∧ (∀ c ∈ s.sqc.chain, c.holds = none) ∧
      headItem s = none ∧ (assignSearch s).chosen = none ∧ anyUnfinished s = true) ∧
    isRunning State.reset = false ∧ Table.wf ItemRecord.fresh s.pgs.items = true := by decide

theorem witness_RunIsRefusedOrTaken_head :
    (onMot (fun m => { m with held := some planX }) (within (.running .dwell))).mot.held.isSome = true ∧
    ((within (.running .dwell)).mot.held = none ∧ headItem (within (.running .dwell)) = none) ∧
    (let s := headGood (onStore (fun t => { t with steps := [(0, { StepRecord.reset with x := 5 })] })
        (passedAtQ (within (.running .dwell))));
      s.mot.held = none ∧ headItem s = some (item 0) ∧ reach (item 0) s ≠ 0) ∧
    (let s := headGood (onAxis .x (fun r => { r with commanded := 4 }) (passedAtQ (within (.running .dwell))));
      s.mot.held = none ∧ headItem s = some (item 0) ∧ reach (item 0) s = 0 ∧ legsOf (item 0) s = []) ∧
    (let s := headGood (passedAtQ (within (.running .dwell)));
      s.mot.held = none ∧ headItem s = some (item 0) ∧ reach (item 0) s = 0 ∧ legsOf (item 0) s ≠ [] ∧
        motionInFlight s = false ∧ (∀ l ∈ legsOf (item 0) s, (s.mot.axis l.axis).state = .idle) ∧ s.mot.cAxis = none ∧
        s.mot.cGap = none) ∧
    (let s := onMot (fun m => { m with running := some planRot }) (headGood (passedAtQ (within (.running .dwell))));
      s.mot.held = none ∧ headItem s = some (item 0) ∧ reach (item 0) s = 0 ∧ legsOf (item 0) s ≠ [] ∧
        motionInFlight s = true) := by decide

end Sys2Proof.Tests
end

/-! ### A request on a ready link, and the fields that several requests read -/

namespace Sys2Proof.WorkItems

open Sys2Proof Sys2Proof.Machine

section
variable {k : Byte} {f : State → Answer} {s t : State} {st : Status} {body : ReplyBody}

/-- On a ready link a request ends where its owner ends, with the owner's reply formed. -/
theorem next_answered (h : linkReady s) (hf : f (taken k s) = (taken k t, st, body)) :
    (.next (request k f s) : Host.Outcome State Fault Refusal) = .next (answered k st body t) :=
  congrArg _ (request_answers k f s t st body h hf)

/-- On a ready link a request that its owner refuses changes nothing but the reply. -/
theorem next_refused (h : linkReady s) (hf : f (taken k s) = refuse st (taken k s)) :
    (.next (request k f s) : Host.Outcome State Fault Refusal) = .next (answered k st .empty s) :=
  next_answered h hf

end

theorem clamp_eq_max_min {lo hi : Nat} (n : Nat) (h : lo ≤ hi) : clamp lo hi n = max lo (min hi n) := by
  unfold clamp
  split
  · omega
  · split <;> omega

theorem clamp_zero_eq_min (hi n : Nat) : clamp 0 hi n = min hi n := by
  rw [clamp_eq_max_min n (Nat.zero_le hi), Nat.zero_max]

theorem clampInt_natCast (hi n : Nat) : clampInt 0 hi (Int.ofNat n) = (min hi n : Nat) := by
  unfold clampInt
  simp only [Int.ofNat_eq_natCast]
  split
  · omega
  · split <;> omega

theorem readCountOf_outside {b : Byte} (h : b.toNat = 0 ∨ 32 < b.toNat) : readCountOf b = none :=
  if_neg (by omega)

theorem readCountOf_inside {b : Byte} (h1 : 1 ≤ b.toNat) (h2 : b.toNat ≤ 32) : readCountOf b = some b.toNat :=
  if_pos ⟨h1, h2⟩

/-! ### STEP_READ and TAPEMAP_READ -/

/-- A read is cut short exactly where the records asked for pass the end of the table. -/
theorem readStatus_readable {first limit : Nat} (count : Nat) (h : first ≤ limit) :
    readStatus (readable first count limit) count = if limit < first + count then .tableEnd else .ok := by
  have cut : readable first count limit < count ↔ limit < first + count := by unfold readable; omega
  simp only [readStatus, cut]

/-- A read moves the cursor in mode ALL alone (R68, R111). -/
theorem hasRead_eq (c : Cursor) (n : Nat) :
    c.hasRead n = { position := if c.mode = .all then c.position + n else c.position, mode := c.mode } := by
  obtain ⟨p, mode⟩ := c
  cases mode <;> rfl

theorem stepReadRequest_refuses {c : Byte} (s : State) (h : readCountOf c = none) :
    stepReadRequest c s = refuse .badValue s := by simp only [stepReadRequest, h]

theorem mapReadRequest_refuses {c : Byte} (s : State) (h : readCountOf c = none) :
    mapReadRequest c s = refuse .badValue s := by simp only [mapReadRequest, h]

/-- STEP_READ of a count that it takes, its cursor and its status written out (R68, R70). -/
theorem stepReadRequest_reads {c : Byte} {n : Nat} (s : State) (h : readCountOf c = some n)
    (hp : s.store.stepCursor.position ≤ 1024) :
    let p := s.store.stepCursor.position
    let m := min n (1024 - p)
    stepReadRequest c s =
      ({ s with store := { s.store with stepCursor :=
          { position := if s.store.stepCursor.mode = .all then p + m else p, mode := s.store.stepCursor.mode } } },
        if 1024 < p + n then .tableEnd else .ok, .stepRecords p (stepRecords p m s)) := by
  have status := readStatus_readable (limit := Config.stepMax) n hp
  simp only [stepReadRequest, h, hasRead_eq, status]
  rfl

/-- TAPEMAP_READ of a count that it takes, its cursor and its status written out (R111, R112). -/
theorem mapReadRequest_reads {c : Byte} {n : Nat} (s : State) (h : readCountOf c = some n)
    (hp : s.tmu.cursor.position ≤ 4096) :
    let p := s.tmu.cursor.position
    let m := min n (4096 - p)
    mapReadRequest c s =
      ({ s with tmu := { s.tmu with cursor :=
          { position := if s.tmu.cursor.mode = .all then p + m else p, mode := s.tmu.cursor.mode } } },
        if 4096 < p + n then .tableEnd else .ok,
        .tapeEntries s.tmu.mapLength s.tmu.position (reelState s) (entryRecords p m s)) := by
  have status := readStatus_readable (limit := Config.tapeMax) n hp
  simp only [mapReadRequest, h, hasRead_eq, status]
  rfl

/-- Settles O10: each read is refused by its count, or answers the owner's equation for a count that it takes. -/
theorem stepsAndTapeEntriesAreReadAtTheCursor : Obligations.StepsAndTapeEntriesAreReadAtTheCursor := by
  unfold Obligations.StepsAndTapeEntriesAreReadAtTheCursor
  refine ⟨fun count s h hp => ⟨fun hc => ?_, fun h1 h2 => ?_⟩, fun count s h hp => ⟨fun hc => ?_, fun h1 h2 => ?_⟩⟩
  · exact next_refused h (stepReadRequest_refuses _ (readCountOf_outside hc))
  · exact next_answered h (stepReadRequest_reads _ (readCountOf_inside h1 h2) hp)
  · exact next_refused h (mapReadRequest_refuses _ (readCountOf_outside hc))
  · exact next_answered h (mapReadRequest_reads _ (readCountOf_inside h1 h2) hp)

/-! ### ITEM_READ and the item counts -/

theorem imageNoOf_outside {b : Byte} (h : b.toNat = 0 ∨ 4 < b.toNat) : imageNoOf b = none :=
  dif_neg (by omega)

theorem imageNoOf_inside {b : Byte} {im : Fin 4} (h : b.toNat = im.val + 1) : imageNoOf b = some im := by
  unfold imageNoOf
  rw [dif_pos (by omega)]
  exact congrArg some (Fin.ext (by simp [h]))

theorem itemReadRequest_refuses {position : Word16} {image count : Byte} (s : State)
    (h : 1023 < position.toNat ∨ imageNoOf image = none ∨ readCountOf count = none) :
    itemReadRequest position image count s = refuse .badValue s := by
  unfold itemReadRequest
  split
  next im c him hc =>
    have : 1023 < position.toNat := by simpa [him, hc] using h
    rw [if_pos this]
  next => rfl

theorem itemReadRequest_reads {position : Word16} {image count : Byte} {im : Fin 4} {n : Nat} (s : State)
    (hp : position.toNat ≤ 1023) (him : imageNoOf image = some im) (hc : readCountOf count = some n) :
    itemReadRequest position image count s =
      (s, .ok, .items (itemRecords position.toNat (min n (1024 - position.toNat)) im s)) := by
  simp only [itemReadRequest, him, hc, if_neg (Nat.not_lt.mpr hp)]
  rfl

/-- Within the table the flag that hasItem gives is that of the position itself. -/
theorem itemRecords_eq {first n : Nat} (im : Fin 4) (s : State) (h : first + n ≤ 1024) :
    itemRecords first n im s = (List.range n).map fun k =>
      (first + k, im.val + 1, itemRec { step := Fin.ofNat 1024 (first + k), image := im } s,
        !(decide (first + k < s.store.stepCount) && (s.pgs.active.image im).enabled)) := by
  unfold itemRecords
  refine List.map_congr_left fun k hk => ?_
  have hk : k < n := List.mem_range.mp hk
  have hstep : (Fin.ofNat 1024 (first + k)).val = first + k := Nat.mod_eq_of_lt (by omega)
  simp only [hasItem, hstep]

/-- Each entry of a list is in one of the nine item states, so the nine counts add up to its length. -/
theorem sum_countP_itemState {α : Type} (g : α → ItemState) (l : List α) :
    l.countP (g · == .pending) + l.countP (g · == .chained) + l.countP (g · == .redo) + l.countP (g · == .head) +
      l.countP (g · == .inserted) + l.countP (g · == .suspect) + l.countP (g · == .abandoned) +
      l.countP (g · == .skipped) + l.countP (g · == .taped) = l.length := by
  induction l with
  | nil => rfl
  | cons a l ih =>
    simp only [List.countP_cons, List.length_cons]
    cases g a <;> simp <;> omega

theorem length_imageItems (image : Fin 4) {n : Nat} (h : n ≤ 1024) : (imageItems image n).length = n := by
  simp [imageItems, h]

theorem length_flatMap_imageItems (enabled : Fin 4 → Bool) {n : Nat} (h : n ≤ 1024) (l : List (Fin 4)) :
    (l.flatMap fun i => if enabled i then imageItems i n else []).length = n * l.countP enabled := by
  induction l with
  | nil => rfl
  | cons i l ih =>
    rw [List.flatMap_cons, List.length_append, ih, List.countP_cons]
    cases enabled i
    · simp
    · simp [length_imageItems i h, Nat.mul_add, Nat.add_comm]

/-- The work list holds one item for each step of each enabled image (R75). -/
theorem length_workList (s : State) (h : s.store.stepCount ≤ 1024) :
    (workList s).length =
      s.store.stepCount * ([0, 1, 2, 3] : List (Fin 4)).countP fun i => (s.pgs.active.image i).enabled :=
  length_flatMap_imageItems (fun i => (s.pgs.active.image i).enabled) h _

/-- Settles O11: ITEM_READ by its refusals and its equation; the counts by the length of the work list. -/
theorem itemsAreReadAndCounted : Obligations.ItemsAreReadAndCounted := by
  unfold Obligations.ItemsAreReadAndCounted
  refine ⟨fun position image count s h => ⟨fun bad => ?_, fun hp h1 h2 im him => ?_⟩, fun s hs => ?_⟩
  · refine next_refused h (itemReadRequest_refuses _ ?_)
    rcases bad with hp | hi | hi | hc | hc
    · exact .inl hp
    · exact .inr (.inl (imageNoOf_outside (.inl hi)))
    · exact .inr (.inl (imageNoOf_outside (.inr hi)))
    · exact .inr (.inr (readCountOf_outside (.inl hc)))
    · exact .inr (.inr (readCountOf_outside (.inr hc)))
  · refine next_answered h ?_
    rw [itemReadRequest_reads _ hp (imageNoOf_inside him) (readCountOf_inside h1 h2), itemRecords_eq _ _ (by omega)]
    rfl
  · exact (sum_countP_itemState (fun i => (itemRec i s).state) (workList s)).trans (length_workList s hs)

end Sys2Proof.WorkItems

/-! ### The settings of a single request and the cursors -/

namespace Sys2Proof.WorkItems

open Sys2Proof Sys2Proof.Machine

/-! #### SET_SPAN and SET_GEOMETRY -/

theorem spanRequest_above {c : Byte} (p : Word16) (s : State) (hc : 15 < c.toNat) :
    spanRequest c p s = refuse .badValue s := if_pos hc

theorem spanRequest_taken {c : Byte} (p : Word16) (s : State) (hc : c.toNat ≤ 15) :
    spanRequest c p s =
      ({ s with store := { s.store with spans := Table.write spanReset s.store.spans c.toNat (min 3000 p.toNat) } }, .ok,
        .span c.toNat (min 3000 p.toNat)) := by
  simp only [spanRequest, if_neg (Nat.not_lt.mpr hc), clamp_zero_eq_min]

theorem geometryRequest_taken (f : GeometryFields) (s : State) :
    geometryRequest f s =
      ({ s with store := { s.store with
          hx := (min 45000 f.hx.toNat : Nat), hy := (min 36000 f.hy.toNat : Nat)
          settleTime := min 50 f.settle.toNat, fitMargin := min 20 f.margin.toNat } }, .ok,
        .geometry (min 45000 f.hx.toNat : Nat) (min 36000 f.hy.toNat : Nat) (min 50 f.settle.toNat)
          (min 20 f.margin.toNat)) := by
  have hx : clampInt 0 45000 (Int.ofNat f.hx.toNat) = (min 45000 f.hx.toNat : Nat) := clampInt_natCast 45000 _
  have hy : clampInt 0 36000 (Int.ofNat f.hy.toNat) = (min 36000 f.hy.toNat : Nat) := clampInt_natCast 36000 _
  simp only [geometryRequest, clamp_zero_eq_min, hx, hy]

/-! #### SET_BAUD and the end of its reply -/

theorem baudRequest_above {c : Byte} (s : State) (hc : 3 < c.toNat) : baudRequest c s = refuse .badValue s := if_pos hc

theorem baudRequest_taken {c : Byte} (s : State) (hc : c.toNat ≤ 3) :
    baudRequest c s = ({ s with lnk := { s.lnk with baudNext := some c.toNat } }, .ok, .byte c) :=
  if_neg (Nat.not_lt.mpr hc)

theorem baudSwitch_none {s : State} (h : s.lnk.baudDue = none) : baudSwitch s = s := by
  simp only [baudSwitch, h]

theorem baudSwitch_some {s : State} {b : Nat} (h : s.lnk.baudDue = some b) :
    baudSwitch s = framerHunt { s with lnk := { s.lnk with baud := b, baudDue := none } } := by
  simp only [baudSwitch, h]

/-! #### The cursors -/

/-- The code of an advance mode (R68). -/
def advanceCode : Advance → Nat
  | .hold => 0
  | .all => 1
  | .write => 2

theorem advanceOf_above {m : Byte} (h : 2 < m.toNat) : advanceOf m = none := by
  have h0 : m ≠ 0 := by rintro rfl; exact absurd h (by decide)
  have h1 : m ≠ 1 := by rintro rfl; exact absurd h (by decide)
  have h2 : m ≠ 2 := by rintro rfl; exact absurd h (by decide)
  simp only [advanceOf, h0, h1, h2, if_false]

theorem advanceOf_code {m : Byte} {mode : Advance} (h : m.toNat = advanceCode mode) : advanceOf m = some mode := by
  cases mode with
  | hold => obtain rfl : m = 0 := BitVec.eq_of_toNat_eq h; rfl
  | all => obtain rfl : m = 1 := BitVec.eq_of_toNat_eq h; rfl
  | write => obtain rfl : m = 2 := BitVec.eq_of_toNat_eq h; rfl

theorem cursorOf_none {last : Nat} {p : Word16} {m : Byte} (h : last < p.toNat ∨ 2 < m.toNat) :
    cursorOf last p m = none := by
  unfold cursorOf
  split
  next mode hm =>
    rcases h with hp | h2
    · exact if_neg (Nat.not_le.mpr hp)
    · exact absurd (hm.symm.trans (advanceOf_above h2)) (Option.some_ne_none mode)
  next => rfl

theorem cursorOf_some {last : Nat} {p : Word16} {m : Byte} {mode : Advance} (hp : p.toNat ≤ last)
    (hm : m.toNat = advanceCode mode) : cursorOf last p m = some { position := p.toNat, mode := mode } := by
  simp only [cursorOf, advanceOf_code hm, if_pos hp]

section
variable {p : Word16} {m : Byte} {c : Cursor} (s : State)

theorem stepCursorRequest_bad (h : cursorOf 1023 p m = none) : stepCursorRequest p m s = refuse .badValue s := by
  simp only [stepCursorRequest, h]

theorem stepCursorRequest_sets (h : cursorOf 1023 p m = some c) :
    stepCursorRequest p m s = ({ s with store := { s.store with stepCursor := c } }, .ok, .cursor c) := by
  simp only [stepCursorRequest, h]

theorem mapCursorRequest_bad (h : cursorOf 4095 p m = none) : mapCursorRequest p m s = refuse .badValue s := by
  simp only [mapCursorRequest, h]

theorem mapCursorRequest_sets (h : cursorOf 4095 p m = some c) :
    mapCursorRequest p m s = ({ s with tmu := { s.tmu with cursor := c } }, .ok, .cursor c) := by
  simp only [mapCursorRequest, h]

end

/-! #### The tape position -/

/-- Queueing a report does not read the request in service. -/
theorem enqueue_taken (r : Report) (k : Byte) (s : State) : enqueue r (taken k s) = taken k (enqueue r s) := by
  unfold enqueue
  simp only [apply_ite (taken k)]
  rfl

/-- The state with the tape at a position, before its reports: neither jammed nor at the end of the map (R113). -/
def tapeAt (p : Nat) (s : State) : State :=
  { s with tmu := { s.tmu with position := p, jammed := false, mapEnd := false } }

/-- The reel state of a tape that is not jammed (R121). -/
def reelUnjammed (s : State) : ReelState := if tapeEnd s then .unthreaded else .ready

theorem reelState_tapeAt (p : Nat) (s : State) : reelState (tapeAt p s) = reelUnjammed s := rfl

theorem reelState_jammed {s : State} (h : s.tmu.jammed = true) : reelState s = .jammed := if_pos h

theorem reelState_unjammed {s : State} (h : s.tmu.jammed = false) : reelState s = reelUnjammed s :=
  if_neg (Bool.eq_false_iff.mp h)

theorem reelUnjammed_ne_jammed (s : State) : reelUnjammed s ≠ .jammed := by
  unfold reelUnjammed
  split <;> decide

/-- The TAPE report of a tape that has been set to a position (R123). -/
def positionReport (cause : TapeCause) (p : Nat) (at? : Option Nat) (s : State) : Report :=
  .tape cause p s.tmu.mapLength (reelUnjammed s) at?

/-- Setting the position changes the reel state, and so queues its report, exactly where the tape was jammed. -/
theorem reportReel_tapeAt (p : Nat) (s : State) :
    reportReel (reelState s) (tapeAt p s) =
      if s.tmu.jammed then enqueue (positionReport .reel p none s) (tapeAt p s) else tapeAt p s := by
  unfold reportReel
  rw [reelState_tapeAt]
  cases hj : s.tmu.jammed with
  | true => rw [reelState_jammed hj, if_neg (reelUnjammed_ne_jammed s)]; rfl
  | false => rw [reelState_unjammed hj, if_pos rfl]; rfl

/-- The reel state is read from the tape and the inputs alone (R121). -/
theorem reelState_congr {s t : State} (htmu : t.tmu = s.tmu) (hwmu : t.wmu = s.wmu) : reelState t = reelState s := by
  unfold reelState tapeEnd inputLevel
  rw [htmu, hwmu]

/-- The tape and the inputs stand as the position left them while its REEL report is queued. -/
theorem reportReel_tapeAt_reads (p : Nat) (s : State) :
    let t := reportReel (reelState s) (tapeAt p s)
    t.tmu = (tapeAt p s).tmu ∧ reelState t = reelUnjammed s := by
  obtain ⟨-, -, hwmu, -, -, htmu, -⟩ := reportReel_keeps (reelState s) (tapeAt p s)
  exact ⟨htmu, reelState_congr htmu hwmu⟩

/-- The reports of a position set: REEL where the tape was jammed, then POSITION_SET (R113, R123). -/
theorem positionTaken_eq (p : Nat) (s : State) :
    positionTaken p s = enqueue (positionReport .positionSet p (some p) s)
      (if s.tmu.jammed then enqueue (positionReport .reel p none s) (tapeAt p s) else tapeAt p s) := by
  obtain ⟨htmu, hreel⟩ := reportReel_tapeAt_reads p s
  rw [← reportReel_tapeAt]
  change tapeReport .positionSet (some p) (reportReel (reelState s) (tapeAt p s)) = _
  rw [tapeReport, hreel, htmu]
  rfl

theorem positionTaken_taken (p : Nat) (k : Byte) (s : State) :
    positionTaken p (taken k s) = taken k (positionTaken p s) := by
  have htape : tapeAt p (taken k s) = taken k (tapeAt p s) := rfl
  have hreport : ∀ cause at?, positionReport cause p at? (taken k s) = positionReport cause p at? s := fun _ _ => rfl
  simp only [positionTaken_eq, hreport, htape, taken_tmu, enqueue_taken]
  split <;> simp only [enqueue_taken]

/-- The reply to a position set tells the position and the reel state that it leaves. -/
theorem positionTaken_reads (p : Nat) (s : State) :
    (positionTaken p s).tmu.position = p ∧ reelState (positionTaken p s) = reelUnjammed s := by
  obtain ⟨htmu, hreel⟩ := reportReel_tapeAt_reads p s
  obtain ⟨-, -, hwmu', -, -, htmu', -⟩ :=
    tapeReport_keeps .positionSet (some p) (reportReel (reelState s) (tapeAt p s))
  exact ⟨congrArg Tmu.position (htmu'.trans htmu), (reelState_congr htmu' hwmu').trans hreel⟩

section
variable {p : Word16} (s : State)

theorem tapePositionRequest_above (hp : s.tmu.mapLength < p.toNat) : tapePositionRequest p s = refuse .badValue s :=
  if_pos hp

theorem tapePositionRequest_inRun (hp : p.toNat ≤ s.tmu.mapLength) (hr : inRun s = true) :
    tapePositionRequest p s = refuse .wrongState s :=
  (if_neg (Nat.not_lt.mpr hp)).trans (if_pos hr)

theorem tapePositionRequest_sets (hp : p.toNat ≤ s.tmu.mapLength) (hr : inRun s = false) :
    tapePositionRequest p s = (positionTaken p.toNat s, .ok, .tapePosition p.toNat (reelUnjammed s)) := by
  obtain ⟨hposition, hreel⟩ := positionTaken_reads p.toNat s
  simp only [tapePositionRequest, if_neg (Nat.not_lt.mpr hp), hr, hposition, hreel, Bool.false_eq_true, if_false]

end

/-- SET_SPAN taken writes one code of the span table and leaves every other reading (R72). -/
theorem setSpan_taken {s : State} (h : linkReady s) {c : Byte} (p : Word16) (hc : c.toNat ≤ 15)
    (hw : Table.wf spanReset s.store.spans = true) :
    ∃ spans, exec (.setSpan c p) s = .next (answered 14 .ok (.span c.toNat (min 3000 p.toNat))
        { s with store := { s.store with spans := spans } }) ∧
      ∀ k, Table.read spanReset spans k = if k = c.toNat then min 3000 p.toNat else Table.read spanReset s.store.spans k :=
  ⟨_, next_answered h (spanRequest_taken p _ hc), fun _ => read_write hw⟩

/-- Settles O18: each request by the equations of its branches. -/
theorem singleSettingsAndCursorsAreSet : Obligations.SingleSettingsAndCursorsAreSet := by
  unfold Obligations.SingleSettingsAndCursorsAreSet
  refine ⟨fun s h => ⟨fun c p hc => ?_, fun c p hc hw => setSpan_taken h p hc hw, fun f => ?_⟩,
    fun s => ⟨fun h m => ?_, fun h c hc => ?_, fun h c hc => ?_, fun hd => ?_, fun b hd => ?_⟩,
    fun p m s h => ⟨fun bad => ?_, fun bad => ?_, fun mode hm => ⟨fun hp => ?_, fun hp => ?_⟩⟩,
    fun p s h => ⟨fun hp => ?_, fun hp hr => ?_, fun hp hr => ?_⟩⟩
  · exact next_refused h (spanRequest_above p _ hc)
  · exact next_answered h (geometryRequest_taken f _)
  · exact next_answered h rfl
  · exact next_refused h (baudRequest_above _ hc)
  · exact next_answered h (baudRequest_taken _ hc)
  · exact congrArg _ (baudSwitch_none hd)
  · exact congrArg _ (baudSwitch_some hd)
  · exact next_refused h (stepCursorRequest_bad _ (cursorOf_none bad))
  · exact next_refused h (mapCursorRequest_bad _ (cursorOf_none bad))
  · exact next_answered h (stepCursorRequest_sets _ (cursorOf_some hp hm))
  · exact next_answered h (mapCursorRequest_sets _ (cursorOf_some hp hm))
  · exact next_refused h (tapePositionRequest_above _ hp)
  · exact next_refused h (tapePositionRequest_inRun _ hp hr)
  · have sets := tapePositionRequest_sets (taken 24 s) hp hr
    rw [positionTaken_taken] at sets
    refine (next_answered h sets).trans ?_
    rw [positionTaken_eq]
    rfl

end Sys2Proof.WorkItems

/-! ### STEP_COUNT and PANEL_SET -/

namespace Sys2Proof.WorkItems

open Sys2Proof Sys2Proof.Machine

theorem stepCountHeld_eq_true (s : State) : stepCountHeld s = true ↔ s.pgs.panel.isSome = true ∨ inRun s = true := by
  simp [stepCountHeld]

theorem stepCountHeld_eq_false (s : State) (hp : s.pgs.panel = none) (hr : inRun s = false) : stepCountHeld s = false := by
  simp [stepCountHeld, hp, hr]

theorem stepCountRequest_above {c : Word16} (s : State) (hc : 1024 < c.toNat) :
    stepCountRequest c s = refuse .badValue s := if_pos hc

theorem stepCountRequest_held {c : Word16} (s : State) (hc : c.toNat ≤ 1024) (hs : stepCountHeld s = true) :
    stepCountRequest c s = refuse .wrongState s :=
  (if_neg (Nat.not_lt.mpr hc)).trans (if_pos hs)

/-- STEP_COUNT taken empties the item state table, so that every record reads as a fresh one (R67, R74). -/
theorem stepCountRequest_taken {c : Word16} (s : State) (hc : c.toNat ≤ 1024) (hs : stepCountHeld s = false) :
    stepCountRequest c s =
      ({ s with store := { s.store with stepCount := c.toNat }, pgs := { s.pgs with items := [] } }, .ok,
        .number c.toNat) :=
  (if_neg (Nat.not_lt.mpr hc)).trans (if_neg (Bool.eq_false_iff.mp hs))

/-- An image of PANEL_SET: an entry above the image count holds nothing (R73, R179). -/
def imageWithin (n k : Nat) (e : ImageFields) : Image := if k ≤ n then imageOf e else .none

/-- The panel setup that PANEL_SET describes. -/
def setupOf (f : PanelFields) : PanelSetup :=
  let n := f.count.toNat
  { count := n, image1 := imageWithin n 1 f.image1, image2 := imageWithin n 2 f.image2
    image3 := imageWithin n 3 f.image3, image4 := imageWithin n 4 f.image4, ox := f.ox, oy := f.oy
    maxTries := max 1 (min 7 f.maxTries.toNat) }

/-- An image of the list of PANEL_SET, as long as its image count, is enabled (R73). -/
def listedEnabled (f : PanelFields) : Bool :=
  (([f.image1, f.image2, f.image3, f.image4] : List ImageFields).take f.count.toNat).any fun e => e.enabled.getLsbD 0

@[simp] theorem imageWithin_enabled (n k : Nat) (e : ImageFields) :
    (imageWithin n k e).enabled = (decide (k ≤ n) && e.enabled.getLsbD 0) := by
  unfold imageWithin
  split
  · simp [*, imageOf, flagOf]
  · simp [*, Image.none]

/-- With an image count of 1 to 4 the list has an enabled image exactly where the setup has one. -/
theorem listedEnabled_eq (f : PanelFields) (h1 : 1 ≤ f.count.toNat) (h4 : f.count.toNat ≤ 4) :
    ((setupOf f).image1.enabled || (setupOf f).image2.enabled || (setupOf f).image3.enabled ||
      (setupOf f).image4.enabled) = listedEnabled f := by
  simp only [setupOf, listedEnabled, imageWithin_enabled]
  generalize f.count.toNat = n at h1 h4
  obtain rfl | rfl | rfl | rfl : n = 1 ∨ n = 2 ∨ n = 3 ∨ n = 4 := by omega
  all_goals simp [Bool.or_assoc]

/-- The reading of PANEL_SET with its condition written out: the image count, and an enabled image in the setup (R73). -/
theorem panelSetupOf_def (f : PanelFields) :
    panelSetupOf f =
      if 1 ≤ f.count.toNat ∧ f.count.toNat ≤ 4 ∧ ((setupOf f).image1.enabled || (setupOf f).image2.enabled ||
        (setupOf f).image3.enabled || (setupOf f).image4.enabled) then some (setupOf f) else none := by
  unfold panelSetupOf setupOf
  rw [clamp_eq_max_min _ (by decide)]
  rfl

theorem panelSetupOf_none {f : PanelFields}
    (h : f.count.toNat = 0 ∨ 4 < f.count.toNat ∨ listedEnabled f = false) : panelSetupOf f = none := by
  rw [panelSetupOf_def]
  refine if_neg fun ⟨h1, h4, he⟩ => ?_
  rw [listedEnabled_eq f h1 h4] at he
  rcases h with h | h | h
  · omega
  · omega
  · exact Bool.false_ne_true (h.symm.trans he)

theorem panelSetupOf_some {f : PanelFields} (h1 : 1 ≤ f.count.toNat) (h4 : f.count.toNat ≤ 4)
    (h : listedEnabled f = true) : panelSetupOf f = some (setupOf f) := by
  rw [panelSetupOf_def]
  exact if_pos ⟨h1, h4, (listedEnabled_eq f h1 h4).trans h⟩

section
variable {f : PanelFields} {p : PanelSetup} (s : State)

theorem panelSetRequest_bad (hf : panelSetupOf f = none) : panelSetRequest f s = refuse .badValue s := by
  simp only [panelSetRequest, hf]

theorem panelSetRequest_tries (hf : panelSetupOf f = some p) (hs : s.pgs.panel.isSome = true)
    (hm : p.maxTries ≠ s.pgs.active.maxTries) : panelSetRequest f s = refuse .wrongState s := by
  simp only [panelSetRequest, hf, if_pos hs, if_neg hm]

/-- Under an open panel a setup is staged and nothing else changes (R74). -/
theorem panelSetRequest_staged (hf : panelSetupOf f = some p) (hs : s.pgs.panel.isSome = true)
    (hm : p.maxTries = s.pgs.active.maxTries) :
    panelSetRequest f s = ({ s with pgs := { s.pgs with staged := some p } }, .ok, .panel p true) := by
  simp only [panelSetRequest, hf, if_pos hs, if_pos hm]

/-- With no panel open a setup is active at once, over an empty item state table (R74). -/
theorem panelSetRequest_active (hf : panelSetupOf f = some p) (hs : s.pgs.panel = none) :
    panelSetRequest f s =
      ({ s with pgs := { s.pgs with active := p, staged := none, items := [] } }, .ok, .panel p false) := by
  simp [panelSetRequest, hf, hs]

end

/-- Settles O21: the branches of the two requests; the rebuilt table is the one with nothing listed. -/
theorem stepCountAndPanelSetRebuildTheItems : Obligations.StepCountAndPanelSetRebuildTheItems := by
  unfold Obligations.StepCountAndPanelSetRebuildTheItems
  refine ⟨fun c s h => ⟨fun hc => ?_, fun hc hs => ?_, fun hc hp hr => ⟨[], ?_, fun _ => rfl⟩⟩,
    fun f s h => ⟨fun bad => ?_, fun h1 h4 listed => ?_⟩⟩
  · exact next_refused h (stepCountRequest_above _ hc)
  · exact next_refused h (stepCountRequest_held _ hc ((stepCountHeld_eq_true s).mpr hs))
  · exact next_answered h (stepCountRequest_taken _ hc (stepCountHeld_eq_false s hp hr))
  · exact next_refused h (panelSetRequest_bad _ (panelSetupOf_none bad))
  · have hf : panelSetupOf f = some (setupOf f) := panelSetupOf_some h1 h4 listed
    refine ⟨fun hs hm => ?_, fun hs hm => ?_, fun hs => ⟨[], ?_, fun _ => rfl⟩⟩
    · exact next_refused h (panelSetRequest_tries _ hf hs hm)
    · exact next_answered h (panelSetRequest_staged _ hf hs hm)
    · exact next_answered h (panelSetRequest_active _ hf hs)

/-! ### Returned items (R77) -/

/-- Different items have different places in the item state table. -/
theorem key_injective : Function.Injective Item.key := by
  intro i j h
  obtain ⟨a, b⟩ := i
  obtain ⟨c, d⟩ := j
  simp only [Item.key] at h
  have hstep : a = c := Fin.ext (by omega)
  have himage : b = d := Fin.ext (by omega)
  rw [hstep, himage]

section
variable {i : Item} {s : State} (h : Table.wf ItemRecord.fresh s.pgs.items = true)
include h

theorem wf_setItemRec (r : ItemRecord) : Table.wf ItemRecord.fresh (setItemRec i r s).pgs.items = true := wf_write h

theorem itemRec_setItemRec_same (r : ItemRecord) : itemRec i (setItemRec i r s) = r := read_write_same h

theorem itemRec_setItemRec_other (r : ItemRecord) {j : Item} (hj : j ≠ i) :
    itemRec j (setItemRec i r s) = itemRec j s := read_write_other h (key_injective.ne hj)

end

/-- A state differs from another in no item record but that of i, which reads as r. -/
def RewritesRecord (i : Item) (r : ItemRecord) (s t : State) : Prop :=
  itemRec i t = r ∧ ∀ j, j ≠ i → itemRec j t = itemRec j s

theorem rewrites_setItemRec {s : State} (i : Item) (r : ItemRecord)
    (h : Table.wf ItemRecord.fresh s.pgs.items = true) : RewritesRecord i r s (setItemRec i r s) :=
  ⟨itemRec_setItemRec_same h r, fun _ hj => itemRec_setItemRec_other h r hj⟩

theorem RewritesRecord.trans {i : Item} {r q : ItemRecord} {s t u : State} (hst : RewritesRecord i r s t)
    (htu : RewritesRecord i q t u) : RewritesRecord i q s u :=
  ⟨htu.1, fun j hj => (htu.2 j hj).trans (hst.2 j hj)⟩

/-- The redo queue takes a returned item: the mode is DIRECT or TAPE_OUT, and the queue has room (R77). -/
def redoTakes (s : State) : Prop :=
  (returnMode s = some .direct ∨ returnMode s = some .tapeOut) ∧ s.sqc.redo.length < 16

theorem placeReturned_queued {i : Item} {s : State} (hq : redoTakes s) :
    placeReturned i s = { setItemState i .redo s with sqc := { s.sqc with redo := s.sqc.redo ++ [i] } } :=
  if_pos (by simp only [Bool.and_eq_true, Bool.or_eq_true, beq_iff_eq, decide_eq_true_eq]; exact hq)

theorem placeReturned_pends {i : Item} {s : State} (hq : ¬ redoTakes s) :
    placeReturned i s = setItemState i .pending s :=
  if_neg (by simp only [Bool.and_eq_true, Bool.or_eq_true, beq_iff_eq, decide_eq_true_eq]; exact hq)

/-- Placing a returned item: the end of the redo queue, or PENDING (R77). -/
theorem placeReturned_places (i : Item) (s : State) (h : Table.wf ItemRecord.fresh s.pgs.items = true) :
    let tries := (itemRec i s).tries
    (redoTakes s → (placeReturned i s).sqc = { s.sqc with redo := s.sqc.redo ++ [i] } ∧
      RewritesRecord i { state := .redo, tries := tries, reason := none } s (placeReturned i s)) ∧
    (¬ redoTakes s → (placeReturned i s).sqc = s.sqc ∧
      RewritesRecord i { state := .pending, tries := tries, reason := none } s (placeReturned i s)) := by
  refine ⟨fun hq => ?_, fun hq => ?_⟩
  · rw [placeReturned_queued hq]
    exact ⟨rfl, rewrites_setItemRec i _ h⟩
  · rw [placeReturned_pends hq]
    exact ⟨rfl, rewrites_setItemRec i _ h⟩

/-- The state with a try counted for an item, before it is placed or abandoned. -/
def tryCounted (i : Item) (s : State) : State :=
  setItemRec i { itemRec i s with tries := (itemRec i s).tries + 1 } s

theorem returnWithTry_eq (i : Item) (s : State) :
    returnWithTry i s = if (itemRec i s).tries + 1 = s.pgs.active.maxTries then raiseAbandoned i (returnTried i s)
      else returnTried i s := by
  simp only [returnWithTry, triesOut, decide_eq_true_eq]

theorem returnWithTry_out {i : Item} {s : State} (h : (itemRec i s).tries + 1 = s.pgs.active.maxTries) :
    returnWithTry i s = raiseAbandoned i (abandonItem i .tries (tryCounted i s)) := by
  have out : triesOut i s = true := decide_eq_true h
  simp only [returnWithTry, returnTried, if_pos out, tryCounted]

theorem returnWithTry_left {i : Item} {s : State} (h : (itemRec i s).tries + 1 ≠ s.pgs.active.maxTries) :
    returnWithTry i s = placeReturned i (tryCounted i s) := by
  have left : ¬ triesOut i s = true := fun out => h (of_decide_eq_true out)
  simp only [returnWithTry, returnTried, if_neg left, tryCounted]

/-- A warning leaves every item record as it is. -/
theorem itemRec_raiseAbandoned (i j : Item) (s : State) : itemRec j (raiseAbandoned i s) = itemRec j s := by
  simp [itemRec]

theorem raiseAbandoned_warns (i : Item) (s : State) : (raiseAbandoned i s).fau.warnPending = true := rfl

/-- A return that brings the tries to their maximum abandons the item (R77). -/
theorem returnWithTry_abandons {i : Item} {s : State} (h : Table.wf ItemRecord.fresh s.pgs.items = true)
    (ht : (itemRec i s).tries + 1 = s.pgs.active.maxTries) :
    (returnWithTry i s).sqc = s.sqc ∧ (returnWithTry i s).fau.warnPending = true ∧
      RewritesRecord i { state := .abandoned, tries := (itemRec i s).tries + 1, reason := some .tries } s
        (returnWithTry i s) := by
  have counted := rewrites_setItemRec i { itemRec i s with tries := (itemRec i s).tries + 1 } h
  have abandoned := counted.trans (rewrites_setItemRec i
    { itemRec i (tryCounted i s) with state := .abandoned, reason := some .tries } (wf_setItemRec h _))
  rw [returnWithTry_out ht]
  refine ⟨by simp [tryCounted], raiseAbandoned_warns _ _, ?_, fun j hj => ?_⟩
  · rw [itemRec_raiseAbandoned]
    refine abandoned.1.trans ?_
    rw [tryCounted, counted.1]
  · rw [itemRec_raiseAbandoned]
    exact abandoned.2 j hj

/-- A return with a try below the maximum places the item with the try counted (R77). -/
theorem returnWithTry_places {i : Item} {s : State} (h : Table.wf ItemRecord.fresh s.pgs.items = true)
    (ht : (itemRec i s).tries + 1 ≠ s.pgs.active.maxTries) :
    let tries := (itemRec i s).tries + 1
    (redoTakes s → (returnWithTry i s).sqc = { s.sqc with redo := s.sqc.redo ++ [i] } ∧
      RewritesRecord i { state := .redo, tries := tries, reason := none } s (returnWithTry i s)) ∧
    (¬ redoTakes s → (returnWithTry i s).sqc = s.sqc ∧
      RewritesRecord i { state := .pending, tries := tries, reason := none } s (returnWithTry i s)) := by
  have counted : RewritesRecord i _ s (tryCounted i s) := rewrites_setItemRec i _ h
  have places := placeReturned_places i (tryCounted i s) (wf_setItemRec h _)
  rw [counted.1] at places
  rw [returnWithTry_left ht]
  refine ⟨fun hq => ?_, fun hq => ?_⟩
  · obtain ⟨hsqc, hrec⟩ := places.1 hq
    exact ⟨hsqc, counted.trans hrec⟩
  · obtain ⟨hsqc, hrec⟩ := places.2 hq
    exact ⟨hsqc, counted.trans hrec⟩

/-- Settles O49: the three places of a returned item, and the frame of the item state table. -/
theorem returnedItemsAreQueuedOrPend : Obligations.ReturnedItemsAreQueuedOrPend := by
  unfold Obligations.ReturnedItemsAreQueuedOrPend
  intro i s h
  obtain ⟨queued, pends⟩ := placeReturned_places i s h
  refine ⟨queued, pends, fun ht => ?_, fun ht => ?_, returnWithTry_eq i s, fun _ => rfl⟩
  · obtain ⟨hsqc, hwarn, hrec, hothers⟩ := returnWithTry_abandons h ht
    exact ⟨hsqc, hrec, hothers, hwarn⟩
  · obtain ⟨queued, pends⟩ := returnWithTry_places h ht
    refine ⟨fun hq => ?_, fun hq => ?_, ?_⟩
    · obtain ⟨hsqc, hrec, -⟩ := queued hq
      exact ⟨hsqc, hrec⟩
    · obtain ⟨hsqc, hrec, -⟩ := pends hq
      exact ⟨hsqc, hrec⟩
    · by_cases hq : redoTakes s
      · exact (queued hq).2.2
      · exact (pends hq).2.2

end Sys2Proof.WorkItems

/-! ### TAPEMAP_WRITE and TAPEMAP_CLEAR -/

namespace Sys2Proof.WorkItems

open Sys2Proof Sys2Proof.Machine

/-! #### Consecutive writes of a table -/

section
variable {α : Type} [DecidableEq α] {d : α}

/-- The table with the values of a list written at consecutive positions from p. -/
def writeFrom (d : α) : Table α → Nat → List α → Table α
  | t, _, [] => t
  | t, p, v :: vs => writeFrom d (Table.write d t p v) (p + 1) vs

theorem read_writeFrom_outside {t : Table α} {p m : Nat} {vs : List α} (h : Table.wf d t = true)
    (hm : m < p ∨ p + vs.length ≤ m) : Table.read d (writeFrom d t p vs) m = Table.read d t m := by
  induction vs generalizing t p with
  | nil => rfl
  | cons v vs ih =>
    rw [List.length_cons] at hm
    exact (ih (wf_write h) (by omega)).trans (read_write_other h (by omega))

theorem read_writeFrom_inside {t : Table α} {p k : Nat} {vs : List α} (h : Table.wf d t = true)
    (hk : k < vs.length) : Table.read d (writeFrom d t p vs) (p + k) = vs[k] := by
  induction vs generalizing t p k with
  | nil => exact absurd hk (Nat.not_lt_zero k)
  | cons v vs ih =>
    cases k with
    | zero => exact (read_writeFrom_outside (wf_write h) (.inl (Nat.lt_succ_self p))).trans (read_write_same h)
    | succ k =>
      rw [← Nat.succ_add_eq_add_succ]
      exact ih (wf_write h) (Nat.lt_of_succ_lt_succ hk)

end

/-! #### The reading of one entry -/

/-- The fields of TAPEMAP_WRITE that stand for an entry: kinds 1 ITEM, 2 BLANK, 3 PANEL_END; images count from 1
(R179). -/
def CodesEntry (f : TapeFields) (e : TapeEntry) : Prop :=
  (f.kind = 1 ∧ ∃ i : Item, e = .item i ∧ f.step.toNat = i.step.val ∧ f.image.toNat = i.image.val + 1) ∨
    (f.kind = 2 ∧ e = .blank) ∨ (f.kind = 3 ∧ e = .panelEnd)

/-- The fields that stand for no entry: another kind, or an ITEM of a step or an image out of range (R111). -/
def CodesNoEntry (f : TapeFields) : Prop :=
  f.kind = 0 ∨ 3 < f.kind.toNat ∨ (f.kind = 1 ∧ (1023 < f.step.toNat ∨ f.image = 0 ∨ 4 < f.image.toNat))

theorem tapeEntryOf_codes {f : TapeFields} {e : TapeEntry} (h : CodesEntry f e) : tapeEntryOf f = some e := by
  obtain ⟨kind, step, image⟩ := f
  rcases h with ⟨rfl, i, rfl, hs, hi⟩ | ⟨rfl, rfl⟩ | ⟨rfl, rfl⟩
  · have inStep : step.toNat < 1024 := by rw [hs]; exact i.step.isLt
    have inImage : 1 ≤ image.toNat ∧ image.toNat ≤ 4 := by
      rw [hi]
      exact ⟨Nat.le_add_left _ _, i.image.isLt⟩
    have read : ({ step := ⟨step.toNat, inStep⟩, image := ⟨image.toNat - 1, by omega⟩ } : Item) = i :=
      congr (congrArg Item.mk (Fin.ext hs)) (Fin.ext (Nat.sub_eq_of_eq_add hi))
    exact (dif_pos inStep).trans ((dif_pos inImage).trans (congrArg (some ∘ TapeEntry.item) read))
  · rfl
  · rfl

theorem tapeEntryOf_codesNone {f : TapeFields} (h : CodesNoEntry f) : tapeEntryOf f = none := by
  obtain ⟨kind, step, image⟩ := f
  rcases h with rfl | hk | ⟨rfl, bad⟩
  · rfl
  · unfold tapeEntryOf
    split
    · omega
    · omega
    · omega
    · rfl
  · rcases bad with hs | rfl | hi
    · exact dif_neg (Nat.not_lt.mpr hs)
    · exact dite_eq_right_iff.mpr fun _ => dif_neg fun ⟨h1, _⟩ => Nat.not_succ_le_zero 0 h1
    · exact dite_eq_right_iff.mpr fun _ => dif_neg fun ⟨_, h4⟩ => Nat.not_lt.mpr h4 hi

/-! #### The entries of a list, up to the first refused -/

/-- The map length after n entries written from p: at least one past the last of them (R110). -/
def lengthAfter (p n length : Nat) : Nat := if n = 0 then length else max length (p + n)

/-- The state with a list of entries written in the tape map from p. -/
def entriesWritten (p : Nat) (es : List TapeEntry) (s : State) : State :=
  { s with tmu := { s.tmu with
      map := writeFrom .blank s.tmu.map p es, mapLength := lengthAfter p es.length s.tmu.mapLength } }

theorem entriesWritten_cons (p : Nat) (e : TapeEntry) (es : List TapeEntry) (s : State) :
    entriesWritten p (e :: es) s = entriesWritten (p + 1) es (writeEntry p e s) := by
  have length : lengthAfter p (es.length + 1) s.tmu.mapLength =
      lengthAfter (p + 1) es.length (max s.tmu.mapLength (p + 1)) := by
    unfold lengthAfter
    split <;> split <;> omega
  simp only [entriesWritten, List.length_cons, length]
  rfl

/-- Writing a list from p writes nothing and ends with a status. -/
def StopsWith (p : Nat) (l : List TapeFields) (st : Status) : Prop :=
  ∀ s, writeEntries p l s = (s, 0, st)

theorem stopsWith_nil (p : Nat) : StopsWith p [] .ok := fun _ => rfl

theorem stopsWith_tableEnd {p : Nat} (f : TapeFields) (l : List TapeFields) (hp : 4096 ≤ p) :
    StopsWith p (f :: l) .tableEnd := fun _ => if_pos hp

theorem stopsWith_badValue {p : Nat} {f : TapeFields} (l : List TapeFields) (hp : p < 4096) (hf : CodesNoEntry f) :
    StopsWith p (f :: l) .badValue := by
  have inMap : ¬ Config.tapeMax ≤ p := Nat.not_le.mpr hp
  intro s
  rw [writeEntries, if_neg inMap, tapeEntryOf_codesNone hf]

/-- Writing goes through the entries that pass their checks, and on with what follows them. -/
theorem writeEntries_append {fs : List TapeFields} {es : List TapeEntry} (reads : fs.map tapeEntryOf = es.map some)
    {p : Nat} {rest : List TapeFields} {st : Status} (hp : p + es.length ≤ 4096)
    (stops : StopsWith (p + es.length) rest st) (s : State) :
    writeEntries p (fs ++ rest) s = (entriesWritten p es s, es.length, st) := by
  induction es generalizing fs p s with
  | nil =>
    obtain rfl : fs = [] := List.map_eq_nil_iff.mp reads
    exact stops s
  | cons e es ih =>
    obtain ⟨f, fs, rfl, read, reads⟩ := List.map_eq_cons_iff.mp reads
    rw [List.length_cons] at hp stops
    rw [← Nat.succ_add_eq_add_succ] at stops
    have inMap : ¬ Config.tapeMax ≤ p := by simp only [Config.tapeMax]; omega
    have tail := ih reads (p := p + 1) (by omega) stops (writeEntry p e s)
    rw [List.cons_append, writeEntries, if_neg inMap, read]
    simp only [tail, entriesWritten_cons, List.length_cons]

/-! #### The request -/

/-- A write moves the cursor in modes ALL and WRITE (R68, R111). -/
theorem wrote_eq (c : Cursor) (n : Nat) :
    c.wrote n = { position := if c.mode = .hold then c.position else c.position + n, mode := c.mode } := by
  obtain ⟨p, mode⟩ := c
  cases mode <;> rfl

theorem wrote_zero (c : Cursor) : c.wrote 0 = c := by
  obtain ⟨p, mode⟩ := c
  cases mode <;> rfl

section
variable {l : List TapeFields} {st : Status} {s : State}

theorem listFits_iff {α : Type} {l : List α} : listFits l = true ↔ 1 ≤ l.length ∧ l.length ≤ 32 :=
  decide_eq_true_iff

theorem listFits_cons {α : Type} (a : α) {l : List α} (h : l.length ≤ 31) : listFits (a :: l) = true :=
  listFits_iff.mpr ⟨Nat.succ_pos _, Nat.succ_le_succ h⟩

theorem mapWriteRequest_misfit (s : State) (h : l = [] ∨ 32 < l.length) :
    mapWriteRequest l s = refuse .badLength s := by
  refine if_neg fun fits => ?_
  obtain ⟨h1, h32⟩ := listFits_iff.mp fits
  rcases h with rfl | h
  · exact absurd h1 (by decide)
  · omega

theorem mapWriteRequest_stops (fits : listFits l = true)
    (stops : StopsWith s.tmu.cursor.position l st) :
    mapWriteRequest l s = (s, st, .tapeWritten 0 s.tmu.mapLength) := by
  rw [mapWriteRequest, if_pos fits, stops s]
  simp only [wrote_zero]

/-- The state that TAPEMAP_WRITE leaves when it has written a list of entries (R110, R111). -/
def mapWritten (es : List TapeEntry) (s : State) : State :=
  let p := s.tmu.cursor.position
  { s with tmu := { s.tmu with
      map := writeFrom .blank s.tmu.map p es
      mapLength := lengthAfter p es.length s.tmu.mapLength
      cursor := { position := if s.tmu.cursor.mode = .hold then p else p + es.length, mode := s.tmu.cursor.mode } } }

theorem mapWriteRequest_writes {es : List TapeEntry} (fits : listFits l = true)
    (reads : (l.take es.length).map tapeEntryOf = es.map some) (hp : s.tmu.cursor.position + es.length ≤ 4096)
    (stops : StopsWith (s.tmu.cursor.position + es.length) (l.drop es.length) st) :
    mapWriteRequest l s =
      (mapWritten es s, st, .tapeWritten es.length (lengthAfter s.tmu.cursor.position es.length s.tmu.mapLength)) := by
  have writes := writeEntries_append reads hp stops s
  rw [List.take_append_drop] at writes
  rw [mapWriteRequest, if_pos fits, writes]
  simp only [wrote_eq]
  rfl

/-- The first entries of a list read as those coded, when each is at its place. -/
theorem take_reads {es : List TapeEntry} (hn : es.length ≤ l.length)
    (h : ∀ (k : Nat) (_ : k < l.length) (_ : k < es.length), CodesEntry l[k] es[k]) :
    (l.take es.length).map tapeEntryOf = es.map some := by
  refine List.ext_getElem ?_ fun k _ he => ?_
  · rw [List.length_map, List.length_map, List.length_take_of_le hn]
  · have inList : k < es.length := by rwa [List.length_map] at he
    rw [List.getElem_map, List.getElem_map, List.getElem_take]
    exact tapeEntryOf_codes (h k (Nat.lt_of_lt_of_le inList hn) inList)

/-- What follows the entries written is nothing, or begins at the end of the map or with an entry that is refused. -/
theorem drop_stops {p n : Nat}
    (h : (n = l.length ∧ st = .ok) ∨ ∃ h : n < l.length,
      (st = .tableEnd ∧ p + n = 4096) ∨ (st = .badValue ∧ p + n < 4096 ∧ CodesNoEntry l[n])) :
    StopsWith (p + n) (l.drop n) st := by
  rcases h with ⟨rfl, rfl⟩ | ⟨hn, stop⟩
  · rw [List.drop_length]
    exact stopsWith_nil _
  · rw [List.drop_eq_getElem_cons hn]
    rcases stop with ⟨rfl, hp⟩ | ⟨rfl, hp, bad⟩
    · exact stopsWith_tableEnd _ _ (Nat.le_of_eq hp.symm)
    · exact stopsWith_badValue _ hp bad

/-- TAPEMAP_WRITE on a ready link: its reply and state, and the map read at every position (R110, R111). -/
theorem tapemapWrite_writes {es : List TapeEntry} (h : linkReady s) (h1 : 1 ≤ l.length) (h32 : l.length ≤ 32)
    (hn : es.length ≤ l.length) (hw : Table.wf TapeEntry.blank s.tmu.map = true)
    (hp : s.tmu.cursor.position + es.length ≤ 4096)
    (codes : ∀ (k : Nat) (_ : k < l.length) (_ : k < es.length), CodesEntry l[k] es[k])
    (stop : (es.length = l.length ∧ st = .ok) ∨ ∃ h : es.length < l.length,
      (st = .tableEnd ∧ s.tmu.cursor.position + es.length = 4096) ∨
        (st = .badValue ∧ s.tmu.cursor.position + es.length < 4096 ∧ CodesNoEntry l[es.length])) :
    let p := s.tmu.cursor.position
    let map := (mapWritten es s).tmu.map
    exec (.tapemapWrite l) s = .next (answered 25 st
        (.tapeWritten es.length (lengthAfter p es.length s.tmu.mapLength)) (mapWritten es s)) ∧
      (∀ (k : Nat) (_ : k < es.length), Table.read .blank map (p + k) = es[k]) ∧
      (∀ m, (m < p ∨ p + es.length ≤ m) → Table.read .blank map m = Table.read .blank s.tmu.map m) :=
  ⟨next_answered h (mapWriteRequest_writes (s := taken 25 s) (listFits_iff.mpr ⟨h1, h32⟩) (take_reads hn codes) hp
      (drop_stops stop)),
    fun _ hk => read_writeFrom_inside hw hk, fun _ hm => read_writeFrom_outside hw hm⟩

end

theorem tapeRunActive_eq_true {s : State} :
    tapeRunActive s = true ↔ inRun s = true ∧ (runMode s = some .tapeOut ∨ runMode s = some .tapeIn) := by
  simp only [tapeRunActive, Bool.and_eq_true, Bool.or_eq_true, beq_iff_eq]

theorem mapClearRequest_inTapeRun {s : State} (h : tapeRunActive s = true) :
    mapClearRequest s = refuse .wrongState s := if_pos h

/-- The state with the tape map emptied, before its report (R112). -/
def mapCleared (s : State) : State := { s with tmu := { s.tmu with map := [], mapLength := 0 } }

theorem mapClearRequest_clears {s : State} (h : ¬ tapeRunActive s = true) :
    mapClearRequest s = accept (enqueue (.tape .cleared s.tmu.position 0 (reelState s) none) (mapCleared s)) :=
  if_neg h

/-- Settles O20: the general write for a list taken whole and for one cut short; the refusals and the clear by their
branches. -/
theorem tapemapWriteWritesAndClearEmpties : Obligations.TapemapWriteWritesAndClearEmpties := by
  unfold Obligations.TapemapWriteWritesAndClearEmpties
  refine ⟨fun l s h h1 h32 hp hw es he codes => ?_,
    fun s h => ⟨fun f l hl => ⟨fun hp => ?_, fun hp bad => ?_⟩, fun g bad => ?_, fun hr hm => ?_, fun free => ?_⟩,
    fun l es st s h h1 h32 hn hw hp codes stop => ?_⟩
  · have writes := tapemapWrite_writes h h1 h32 (Nat.le_of_eq he) hw (he ▸ hp) codes (.inl ⟨he, rfl⟩)
    have length : lengthAfter s.tmu.cursor.position l.length s.tmu.mapLength =
        max s.tmu.mapLength (s.tmu.cursor.position + l.length) := if_neg (by omega)
    simp only [mapWritten, he, length] at writes
    exact ⟨_, writes.1, fun k hk => writes.2.1 k (he ▸ hk), writes.2.2⟩
  · exact next_answered h (mapWriteRequest_stops (s := taken 25 s) (listFits_cons f hl) (stopsWith_tableEnd f l hp))
  · exact next_answered h (mapWriteRequest_stops (s := taken 25 s) (listFits_cons f hl) (stopsWith_badValue l hp bad))
  · exact next_refused h (mapWriteRequest_misfit _ bad)
  · exact next_refused h (mapClearRequest_inTapeRun (s := taken 27 s) (tapeRunActive_eq_true.mpr ⟨hr, hm⟩))
  · have notActive : ¬ tapeRunActive s = true := by
      rw [tapeRunActive_eq_true]
      rintro ⟨hr, hm⟩
      rcases free with hr' | ⟨ho, hi⟩
      · exact Bool.false_ne_true (hr'.symm.trans hr)
      · exact hm.elim ho hi
    have clears := mapClearRequest_clears (s := taken 27 s) notActive
    refine next_answered h (clears.trans ?_)
    exact congrArg accept (enqueue_taken _ 27 (mapCleared s))
  · exact ⟨_, tapemapWrite_writes h h1 h32 hn hw hp codes stop⟩

end Sys2Proof.WorkItems

/-! ### The tick profile (R146, R147) -/

namespace Sys2Proof.MovePlans

open Sys2Proof Sys2Proof.Machine

/-- The quotient rounded up, as R146 writes the ramp length and the number of middle ticks. -/
theorem roundedUp_le_iff {l p k : Nat} (hp : 0 < p) : (l + (p - 1)) / p ≤ k ↔ l ≤ k * p := by
  rw [Nat.div_le_iff_le_mul_add_pred hp, Nat.mul_comm p k]
  omega

theorem rampRate_le_top (r : Rates) (k : Nat) : rampRate r k ≤ r.rt := Nat.min_le_right ..

section

variable {r : Rates}

theorem rampRate_zero (h : r.rs ≤ r.rt) : rampRate r 0 = r.rs := by simp [rampRate, h]

theorem rampRate_pos (hs : 1 ≤ r.rs) (ht : r.rs ≤ r.rt) (k : Nat) : 1 ≤ rampRate r k :=
  Nat.le_min.mpr ⟨Nat.le_trans hs (Nat.le_add_right ..), Nat.le_trans hs ht⟩

/-- The ramp stands at the top rate from the ramp length on, and at no tick before. -/
theorem rampLength_le_iff (ha : 0 < r.a) {k : Nat} : rampLength r ≤ k ↔ rampRate r k = r.rt := by
  rw [rampLength, roundedUp_le_iff ha, rampRate]
  omega

theorem rampRate_lt_top (ha : 0 < r.a) {k : Nat} (hk : k < rampLength r) : rampRate r k < r.rt :=
  Nat.lt_of_le_of_ne (rampRate_le_top r k) fun top => Nat.not_le.mpr hk ((rampLength_le_iff ha).mpr top)

end

theorem sum_map_rampRate (r : Rates) (m : Nat) : ((List.range m).map (rampRate r)).sum = rampSum r m := by
  induction m with
  | zero => rfl
  | succ m ih => simp [List.range_succ, rampSum, ih]

theorem start_le_rampSum {r : Rates} (ht : r.rs ≤ r.rt) (m : Nat) : r.rs ≤ rampSum r (m + 1) := by
  induction m with
  | zero => simp [rampSum, rampRate_zero ht]
  | succ m ih => exact Nat.le_trans ih (Nat.le_add_right ..)

/-! #### The ramp count -/

theorem rampCount_le (r : Rates) (n bound : Nat) : rampCount r n bound ≤ bound := by
  induction bound with
  | zero => exact Nat.le_refl 0
  | succ k ih =>
    rw [rampCount]
    split
    · exact Nat.le_refl _
    · exact Nat.le_succ_of_le ih

/-- The two ramps fit in the distance. -/
theorem rampSum_rampCount_le (r : Rates) (n bound : Nat) : 2 * rampSum r (rampCount r n bound) ≤ n := by
  induction bound with
  | zero => exact Nat.zero_le n
  | succ k ih =>
    rw [rampCount]
    split
    · assumption
    · exact ih

theorem le_rampCount {r : Rates} {n m bound : Nat} (hm : m ≤ bound) (fits : 2 * rampSum r m ≤ n) :
    m ≤ rampCount r n bound := by
  induction bound with
  | zero => exact hm
  | succ k ih =>
    rw [rampCount]
    split
    next => exact hm
    next longer =>
      rcases Nat.le_succ_iff.mp hm with within | rfl
      · exact ih within
      · exact absurd fits longer

/-- A distance within the start rate leaves no room for a ramp. -/
theorem rampCount_eq_zero {r : Rates} {n bound : Nat} (ht : r.rs ≤ r.rt) (hn : 1 ≤ n) (h : n ≤ r.rs) :
    rampCount r n bound = 0 := by
  have fits := rampSum_rampCount_le r n bound
  cases count : rampCount r n bound with
  | zero => rfl
  | succ m =>
    rw [count] at fits
    have start := start_le_rampSum ht m
    omega

/-! #### The middle ticks -/

section

variable {p l : Nat}

@[simp] theorem length_middleTicks : (middleTicks p l).length = (l + (p - 1)) / p := by
  simp only [middleTicks]
  split
  next empty => simp [empty]
  next filled =>
    rw [List.length_append, List.length_replicate]
    exact Nat.sub_add_cancel (Nat.pos_of_ne_zero filled)

theorem middleTicks_zero (hp : 0 < p) : middleTicks p 0 = [] := by
  have empty : (0 + (p - 1)) / p = 0 := Nat.le_zero.mp ((roundedUp_le_iff hp).mpr (Nat.zero_le _))
  simp only [middleTicks, empty, if_true]

/-- A rest above k full ticks and within k + 1 runs k full ticks and then what is left. -/
theorem middleTicks_of_lt_of_le {k : Nat} (above : k * p < l) (within : l ≤ (k + 1) * p) :
    middleTicks p l = List.replicate k p ++ [l - k * p] := by
  have hp : 0 < p := Nat.pos_of_ne_zero (by rintro rfl; omega)
  have count : (l + (p - 1)) / p = k + 1 := by
    have hle := (roundedUp_le_iff hp).mpr within
    have hlt := mt (roundedUp_le_iff hp).mp (Nat.not_le.mpr above)
    omega
  simp only [middleTicks, count, Nat.add_one_ne_zero, if_false, Nat.add_sub_cancel]

/-- The middle is empty, or runs full ticks and a last one of 1 to p pulses. -/
theorem middleTicks_cases (hp : 0 < p) (l : Nat) :
    (l = 0 ∧ middleTicks p l = []) ∨
      ∃ k last, l = k * p + last ∧ 1 ≤ last ∧ last ≤ p ∧ middleTicks p l = List.replicate k p ++ [last] := by
  rcases Nat.eq_zero_or_pos l with rfl | pos
  · exact .inl ⟨rfl, middleTicks_zero hp⟩
  · have whole := Nat.div_add_mod' (l - 1) p
    have rest := Nat.mod_lt (l - 1) hp
    refine .inr ⟨(l - 1) / p, l - (l - 1) / p * p, by omega, by omega, by omega, ?_⟩
    exact middleTicks_of_lt_of_le (by omega) (by rw [Nat.succ_mul]; omega)

theorem sum_middleTicks (hp : 0 < p) (l : Nat) : (middleTicks p l).sum = l := by
  rcases middleTicks_cases hp l with ⟨rfl, empty⟩ | ⟨k, last, rfl, -, -, filled⟩
  · rw [empty, List.sum_nil]
  · simp [filled]

theorem middleTicks_bounds (hp : 0 < p) {k : Nat} (hk : k ∈ middleTicks p l) : 1 ≤ k ∧ k ≤ p := by
  rcases middleTicks_cases hp l with ⟨-, empty⟩ | ⟨full, last, -, pos, le, filled⟩
  · simp [empty] at hk
  · rw [filled, List.mem_append, List.mem_singleton] at hk
    rcases hk with hk | rfl
    · rw [List.eq_of_mem_replicate hk]
      exact ⟨hp, Nat.le_refl p⟩
    · exact ⟨pos, le⟩

end

/-! #### The whole profile -/

section

variable {r : Rates}

theorem sum_tickProfile (hs : 1 ≤ r.rs) (ht : r.rs ≤ r.rt) (n : Nat) : (tickProfile r n).sum = n := by
  have fits := rampSum_rampCount_le r n (rampLength r)
  simp only [tickProfile, List.sum_append, List.sum_reverse, sum_map_rampRate,
    sum_middleTicks (rampRate_pos hs ht _)]
  omega

theorem length_tickProfile (r : Rates) (n : Nat) :
    let m := rampCount r n (rampLength r)
    (tickProfile r n).length = 2 * m + (n - 2 * rampSum r m + (rampRate r m - 1)) / rampRate r m := by
  simp only [tickProfile, List.length_append, List.length_reverse, List.length_map, List.length_range,
    length_middleTicks]
  omega

theorem tickProfile_bounds (hs : 1 ≤ r.rs) (ht : r.rs ≤ r.rt) {n k : Nat} (hk : k ∈ tickProfile r n) :
    1 ≤ k ∧ k ≤ r.rt := by
  have onRamp : ∀ m, k ∈ (List.range m).map (rampRate r) → 1 ≤ k ∧ k ≤ r.rt := by
    intro m hk
    obtain ⟨j, -, rfl⟩ := List.mem_map.mp hk
    exact ⟨rampRate_pos hs ht j, rampRate_le_top r j⟩
  simp only [tickProfile, List.mem_append, List.mem_reverse] at hk
  obtain (up | middle) | down := hk
  · exact onRamp _ up
  · obtain ⟨pos, le⟩ := middleTicks_bounds (rampRate_pos hs ht _) middle
    exact ⟨pos, Nat.le_trans le (rampRate_le_top r _)⟩
  · exact onRamp _ down

/-- A profile with no ramp is its middle, run at the start rate. -/
theorem tickProfile_of_rampCount_eq_zero (ht : r.rs ≤ r.rt) {n : Nat} (count : rampCount r n (rampLength r) = 0) :
    tickProfile r n = middleTicks r.rs n := by
  simp [tickProfile, count, rampSum, rampRate_zero ht]

theorem head_tickProfile_le (hs : 1 ≤ r.rs) (ht : r.rs ≤ r.rt) {n k : Nat} (hk : (tickProfile r n).head? = some k) :
    k ≤ r.rs := by
  cases count : rampCount r n (rampLength r) with
  | zero =>
    rw [tickProfile_of_rampCount_eq_zero ht count] at hk
    exact (middleTicks_bounds hs (List.mem_of_head? hk)).2
  | succ m =>
    have first : rampRate r 0 = k := by
      simpa [tickProfile, count, List.range_succ_eq_map] using hk
    exact Nat.le_of_eq (first.symm.trans (rampRate_zero ht))

theorem tickProfile_within_start (ht : r.rs ≤ r.rt) {n : Nat} (hn : 1 ≤ n) (h : n ≤ r.rs) : tickProfile r n = [n] := by
  rw [tickProfile_of_rampCount_eq_zero ht (rampCount_eq_zero ht hn h)]
  simpa using middleTicks_of_lt_of_le (p := r.rs) (l := n) (k := 0) (by omega) (by omega)

end

/-- Settles O52: the ramp length by the quotient rounded up, the ramp count by induction on its bound, the profile by
its two ramps and its middle. -/
theorem tickProfilesCoverTheirDistance : Obligations.TickProfilesCoverTheirDistance := by
  intro r n sound hn
  obtain ⟨⟨hs, -⟩, ⟨ht, -⟩, ⟨ha, -⟩⟩ := sound
  have rampSum_eq : ∀ m, ((List.range m).map fun k => min (r.rs + k * r.a) r.rt).sum = rampSum r m := sum_map_rampRate r
  simp only [rampSum_eq]
  exact ⟨⟨(rampLength_le_iff ha).mp (Nat.le_refl _), fun _ => rampRate_lt_top ha⟩,
    ⟨rampCount_le r n _, rampSum_rampCount_le r n _, fun _ => le_rampCount⟩,
    sum_tickProfile hs ht n, fun _ => tickProfile_bounds hs ht, fun _ => head_tickProfile_le hs ht,
    tickProfile_within_start ht hn, length_tickProfile r n⟩

end Sys2Proof.MovePlans

/-! ### The capture record: what is taken into it, and what a read of it shows (R163 to R166) -/

namespace Sys2Proof.CaptureRecord

open Sys2Proof Sys2Proof.Machine

/-! #### Severity and work-list order (R164) -/

theorem severity_injective : Function.Injective FaultClass.severity := by
  intro a b h
  cases a <;> cases b <;> cases h <;> rfl

/-- The place of an item in the item state table orders items by image number, then by step. -/
theorem key_lt_iff (i j : Item) : i.key < j.key ↔ i.image < j.image ∨ (i.image = j.image ∧ i.step < j.step) := by
  simp only [Item.key, Fin.lt_def, Fin.ext_iff]
  omega

theorem itemEarlier_iff (a b : Option Item) : itemEarlier a b = true ↔
    ∃ i, a = some i ∧ (b = none ∨ ∃ j, b = some j ∧ (i.image < j.image ∨ (i.image = j.image ∧ i.step < j.step))) := by
  cases a with
  | none => simp [itemEarlier]
  | some i =>
    cases b with
    | none => simp [itemEarlier]
    | some j => simp [itemEarlier, key_lt_iff]

/-! #### A fault offered to the record (R163, R164) -/

section
variable {r o : FaultRecord} {c : Capture} {s : State}

/-- A locked record is replaced by a more severe fault, or by one of its class with an earlier item. -/
theorem captureTakes_locked_iff (hr : r.cls ≠ .w) (hl : c.locked = true) (ho : c.content = some o) :
    captureTakes r c = true ↔
      o.cls.severity < r.cls.severity ∨ (r.cls = o.cls ∧ itemEarlier r.item o.item = true) := by
  simp [captureTakes, hr, hl, ho, severity_injective.eq_iff]

theorem captureAfter_locked (hr : r.cls ≠ .w) (hl : c.locked = true) :
    captureAfter r c =
      { content := if captureTakes r c then some r else c.content, locked := true, later := min (c.later + 1) 255 } := by
  simp only [captureAfter, hr, hl, if_true, if_false]
  rfl

theorem takeFault_warning (hr : r.cls = .w) : takeFault r s = enqueue (.fault r false) s := by
  simp only [takeFault, captureTakes, captureAfter, hr, if_true]

theorem takeFault_unlocked (hr : r.cls ≠ .w) (hl : s.fau.capture.locked = false) :
    takeFault r s = enqueue (.fault r true)
      { s with fau := { s.fau with capture := { content := some r, locked := true, later := 0 } } } := by
  simp only [takeFault, captureTakes, captureAfter, hr, hl, Bool.false_eq_true, if_false]

theorem takeFault_replaces (hr : r.cls ≠ .w) (hl : s.fau.capture.locked = true)
    (ht : captureTakes r s.fau.capture = true) :
    takeFault r s = enqueue (.fault r true) { s with fau := { s.fau with capture :=
      { content := some r, locked := true, later := min (s.fau.capture.later + 1) 255 } } } := by
  simp only [takeFault, captureAfter_locked hr hl, ht, if_true]

theorem takeFault_counts (hr : r.cls ≠ .w) (hl : s.fau.capture.locked = true)
    (ht : captureTakes r s.fau.capture = false) :
    takeFault r s = enqueue (.fault r false) { s with fau := { s.fau with capture :=
      { s.fau.capture with later := min (s.fau.capture.later + 1) 255 } } } := by
  simp only [takeFault, captureAfter_locked hr hl, ht, hl, Bool.false_eq_true, if_false]

end

/-- Settles O56: each clause is the rule of its case, a locked record's replacement read through `captureTakes`. -/
theorem theCaptureRecordKeepsTheWorst : Obligations.TheCaptureRecordKeepsTheWorst := by
  intro r s c rank earlier
  have rank_eq : ∀ k, rank k = k.severity := fun k => by cases k <;> rfl
  refine ⟨takeFault_warning, takeFault_unlocked, ?_⟩
  intro o hr hl ho takes
  have takes_iff : captureTakes r c = true ↔ takes := by
    rw [captureTakes_locked_iff hr hl ho, itemEarlier_iff, ← rank_eq, ← rank_eq]
  exact ⟨fun ht => takeFault_replaces hr hl (takes_iff.mpr ht),
    fun ht => takeFault_counts hr hl (Bool.eq_false_iff.mpr (mt takes_iff.mp ht))⟩

/-! #### CAPTURE_READ and CLEAR_FAULT (R165, R166) -/

/-- On a ready link a request leaves the Fault and Alarm Unit as its owner leaves it: the reply is formed in the link. -/
theorem request_fau (k : Byte) (f : State → Answer) {s : State} (h : linkReady s) :
    (request k f s).fau = (f (taken k s)).1.fau := by
  simp only [request, settled_of_ready s h, serve, h.1]
  rfl

@[simp] theorem leaveHalted_fau (s : State) : (leaveHalted s).fau = s.fau := by
  unfold leaveHalted
  split <;> simp

/-- The event that CLEAR_FAULT is unlocks the record and turns the horn off; leaving HALTED, the trip that R11 may raise and
the STATE report touch the Fault and Alarm Unit no further. -/
theorem clearTaken_event_fau (s : State) : (eventRun clearTaken s).fau =
    { s.fau with capture := { s.fau.capture with locked := false, later := 0 }, horn := false } := by
  simp [eventRun, clearTaken]

theorem clearRequest_fau {s : State} (hc : causePresent s = false) : (clearRequest s).1.fau =
    { s.fau with capture := { s.fau.capture with locked := false, later := 0 }, horn := false } := by
  simp only [clearRequest, hc, Bool.false_eq_true, if_false, clearTaken_event_fau]

/-- Settles O8: the read answers with the record and the state as they stand; the content outlives a CLEAR_FAULT taken. -/
theorem captureReadShowsTheRecord : Obligations.CaptureReadShowsTheRecord := by
  refine ⟨fun s h => WorkItems.next_answered h rfl, fun s h hc => ⟨_, rfl, ?_⟩⟩
  rw [request_fau 35 clearRequest h, clearRequest_fau (s := taken 35 s) hc, taken_fau]

end Sys2Proof.CaptureRecord
